-- ==== Sys2Proof/Word.lean ====
section
/-!
DEFINITION. The word types of RFCORE (00_scope.md R8) and the three axes (R10).
-/

namespace Sys2Proof

/-- A byte of the frame operand port (20_memory.md R52), `u8`. -/
abbrev Byte := BitVec 8

/-- A 16-bit register or `wd_*` port: `u16` or `s16` as the rule of its reader says. -/
abbrev Half := BitVec 16

/-- A 32-bit word: what the read port returns (R54) and the width of an accumulator lane (R24). -/
abbrev Word := BitVec 32

/-- The three axes, indexed 0, 1, 2 (R10). `z` is the vertical axis. -/
inductive Axis where
  | x
  | y
  | z
deriving DecidableEq, Repr

/-- A 3-axis register: one lane of `w` bits for each axis (R10). -/
structure Axes (w : Nat) where
  x : BitVec w
  y : BitVec w
  z : BitVec w
deriving DecidableEq, Repr

/-- The lane of one axis. -/
def Axes.lane {w : Nat} (a : Axes w) : Axis → BitVec w
  | .x => a.x
  | .y => a.y
  | .z => a.z

/-- The three lanes, each built from its axis alone: the "for a in (X, Y, Z)" of R10. -/
def Axes.ofLanes {w : Nat} (f : Axis → BitVec w) : Axes w := ⟨f .x, f .y, f .z⟩

/-- All three lanes zero. -/
def Axes.zero {w : Nat} : Axes w := ⟨0, 0, 0⟩

@[simp] theorem Axes.lane_ofLanes {w : Nat} (f : Axis → BitVec w) (a : Axis) :
    (Axes.ofLanes f).lane a = f a := by
  cases a <;> rfl

/-- A 3-axis register is its three lanes. -/
theorem Axes.ext_lane {w : Nat} {a b : Axes w} (h : ∀ l, a.lane l = b.lane l) : a = b := by
  cases a
  cases b
  exact congr (congr (congrArg Axes.mk (h .x)) (h .y)) (h .z)

@[simp] theorem Axes.lane_zero {w : Nat} (a : Axis) : (Axes.zero : Axes w).lane a = 0 := by
  cases a <;> rfl

end Sys2Proof
end

