-- ==== Sys2Proof/Config.lean ====
section
/-!
DEFINITION. The implementation parameters of 00_scope.md R6, and the constants without a body that stand for
what the spec leaves open. A definition that uses a parameter takes a `Config`, so that claims can be made for
every value and tests run at any value; `Machine.chip` (Machine/Chip.lean) is the one instance `step` uses.
-/

namespace Sys2Proof

/-- `CAL_DIV_MODE` (R6, R9): how `DIV` rounds. -/
inductive DivMode where
  | trunc   -- toward zero
  | floor   -- toward minus infinity
deriving DecidableEq, Repr, Inhabited

/-- The parameters of a model instance, with the defaults R6 gives; those it marks OPEN have none. -/
structure Params where
  calN : Half := 400
  divMode : DivMode := .trunc
  resetFill : Half
  trimInit : Axes 16
  calDoneInit : Bool
deriving DecidableEq, Repr

/-- An ADMITTED instance: its parameters, and that `CAL_N` is not 0 (R7: "A model instance with `CAL_N = 0` is
not admitted"). No value of this type has `CAL_N = 0`. -/
structure Config extends Params where
  calN_ne_zero : calN ≠ 0
deriving DecidableEq, Repr

namespace Config

/-- `CAL_N` as a number, 1 to 65535. -/
def n (c : Config) : Nat := c.calN.toNat

/-- `h = CAL_N div 2` (R136). -/
def half (c : Config) : Nat := c.n / 2

theorem n_pos (c : Config) : 0 < c.n := by
  have h := c.calN_ne_zero
  unfold Config.n
  rcases Nat.eq_zero_or_pos c.calN.toNat with h0 | h0
  · exact absurd (BitVec.eq_of_toNat_eq (by simpa using h0)) h
  · exact h0

theorem n_le (c : Config) : c.n ≤ 65535 := by
  have := c.calN.isLt
  unfold Config.n
  omega

/-! ### What the spec leaves open (log entries 3 and 4): constants with no body -/

/-- `CAL_N - 1` of the instance: any of 0 to 65534, so that `CAL_N` is any of 1 to 65535 (R6, D12). -/
opaque openCalNPred : Fin 65535

/-- `CAL_DIV_MODE` of the instance (R6, D13: OPEN). -/
opaque openDivMode : DivMode

/-- `RESET_FILL` of the instance (R6, D21: OPEN). -/
opaque openResetFill : Half

/-- `TRIM_INIT_X` of the instance (R6, D22: OPEN). -/
opaque openTrimInitX : Half

/-- `TRIM_INIT_Y` of the instance (R6, D22: OPEN). -/
opaque openTrimInitY : Half

/-- `TRIM_INIT_Z` of the instance (R6, D22: OPEN). -/
opaque openTrimInitZ : Half

/-- `CAL_DONE_INIT` of the instance (R6, D18: OPEN). -/
opaque openCalDoneInit : Bool

/-- FREE VALUE (log entry 4): what a 32-bit accumulator lane holds after a sum that does not fit `s32`. R142 says no
reachable tick has such a sum, and no rule says what is stored. -/
opaque freeAccumulator : Int → Word

end Config

/-! ### Fixed constants, not parameters (R6) -/

/-- `CH_SLOTS`: the number of channel slots (R6, D9). -/
def chSlots : Nat := 26

/-- `SENT_LO`: a digital channel that is off (R6, R103). -/
def sentLo : Half := 173

/-- `SENT_HI`: a digital channel that is on (R6, R103). -/
def sentHi : Half := 1812

/-- The reset value of `ACC_1G` (R6, R27). -/
def acc1gReset : Half := 256

end Sys2Proof
end

