-- ==== Sys2Proof/Ports.lean ====
section
/-!
DEFINITION. The input pins of RFCORE: the command port with its operand ports (30_encoding.md R70, R72), and all the
pins of one clock cycle. They are inputs of a step, not registers (10_state.md R32).
-/

namespace Sys2Proof

/-- The word on `cmd_op[3:0]` and the values on the operand ports in the same cycle (R70, R72). `frameIn[i]` is
`FrameByte(i)`, bits `8*i+7 : 8*i` of `frame_in[271:0]` (20_memory.md R52). -/
structure CmdPort where
  cmdOp : BitVec 4
  frameIn : Vector Byte 34
  wdX : Half
  wdY : Half
  wdZ : Half
deriving DecidableEq, Repr

/-- A command port whose operand ports are all zero. -/
def CmdPort.ofOp (op : BitVec 4) : CmdPort := ⟨op, Vector.replicate 34 0, 0, 0, 0⟩

/-- Everything the host drives in one clock cycle: `rst` (70_reset_and_hazards.md R200), `cmd_valid` and the command
port (R70), `rd_addr` of the read port (20_memory.md R54). -/
structure ClockCycle where
  rst : Bool
  cmdValid : Bool
  port : CmdPort
  rdAddr : BitVec 6
deriving DecidableEq, Repr

/-- A cycle without reset and without a command. Its `rd_addr` is 0 (DESIGN CHOICE, log entry 12). -/
def ClockCycle.idle : ClockCycle := ⟨false, false, CmdPort.ofOp 0, 0⟩

/-- A cycle that issues the command on `p`. Its `rd_addr` is 0 (DESIGN CHOICE, log entry 12): the spec gives none to a
cycle without a READ, and a read has no effect (20_memory.md R59). -/
def ClockCycle.issue (p : CmdPort) : ClockCycle := ⟨false, true, p, 0⟩

end Sys2Proof
end

