-- ==== Sys2Proof/Syntax.lean ====
section
/-!
DEFINITION. The commands of RFCORE (30_encoding.md R73), one constructor per row of spec/opcode_table.json. A
constructor carries the values of the operand ports that R72 lists for its command, and no others.
-/

namespace Sys2Proof

/-- A command with its operands. The table has three RESERVED rows; the two that stand for several opcodes
(101x and 11xx) keep the opcode. -/
inductive Instr where
  | nop                                    -- 0000, R160
  | dec8 (frame : Vector Byte 12)          -- 0001, R105
  | dec16 (frame : Vector Byte 23)         -- 0010, R106
  | dec24 (frame : Vector Byte 34)         -- 0011, R107
  | calStart                               -- 0100, R130
  | calTick                                -- 0101, R131
  | sampleWr (x y z : Half)                -- 0110, R162
  | trimWr (x y z : Half)                  -- 0111, R163
  | acc1gWr (v : Half)                     -- 1000, R164
  | reserved1001                           -- 1001, R166
  | reserved101x (op : BitVec 4)           -- 101x, R166
  | reserved11xx (op : BitVec 4)           -- 11xx, R166
deriving DecidableEq, Repr

end Sys2Proof
end

