-- ==== Sys2Proof/WellFormed.lean ====
section
/-!
DEFINITION. What is well formed: a command (each RESERVED row keeps an opcode of its own row) and a configuration
(00_scope.md R7). The other operands of a command are well formed by their types.
-/

namespace Sys2Proof

/-- A command is well formed when the opcode it keeps, if any, lies in its row of the opcode table. -/
def Instr.wf : Instr → Bool
  | .nop => true
  | .dec8 _ => true
  | .dec16 _ => true
  | .dec24 _ => true
  | .calStart => true
  | .calTick => true
  | .sampleWr _ _ _ => true
  | .trimWr _ _ _ => true
  | .acc1gWr _ => true
  | .reserved1001 => true
  | .reserved101x op => op &&& 0b1110#4 == 0b1010#4
  | .reserved11xx op => op &&& 0b1100#4 == 0b1100#4

/-- R7: the parameters make an instance unless `CAL_N = 0`: "A model must refuse the configuration rather than give
it a meaning". -/
def Config.accept (p : Params) : Option Config :=
  if h : p.calN = 0 then none else some ⟨p, h⟩

end Sys2Proof
end

