-- ==== Sys2Proof/Decode.lean ====
section
/-!
DEFINITION. Decoding the command port (30_encoding.md R71 to R75), total on every 4-bit word, and the encoder. The
opcode table stands once as data; the decoder is R74's text.
-/

namespace Sys2Proof

/-- One row of the opcode table (spec/opcode_table.json, R73): an opcode `op` is of the row when
`op &&& mask = pattern`. -/
structure OpRow where
  mnemonic : String
  pattern : BitVec 4
  mask : BitVec 4
deriving DecidableEq, Repr

/-- The complete opcode map (R73). -/
def opcodeTable : List OpRow :=
  [ ⟨"NOP", 0b0000#4, 0b1111#4⟩,
    ⟨"DEC8", 0b0001#4, 0b1111#4⟩,
    ⟨"DEC16", 0b0010#4, 0b1111#4⟩,
    ⟨"DEC24", 0b0011#4, 0b1111#4⟩,
    ⟨"CAL_START", 0b0100#4, 0b1111#4⟩,
    ⟨"CAL_TICK", 0b0101#4, 0b1111#4⟩,
    ⟨"SAMPLE_WR", 0b0110#4, 0b1111#4⟩,
    ⟨"TRIM_WR", 0b0111#4, 0b1111#4⟩,
    ⟨"ACC1G_WR", 0b1000#4, 0b1111#4⟩,
    ⟨"RESERVED", 0b1001#4, 0b1111#4⟩,
    ⟨"RESERVED", 0b1010#4, 0b1110#4⟩,
    ⟨"RESERVED", 0b1100#4, 0b1100#4⟩ ]

/-- Does the opcode belong to the row? -/
def OpRow.covers (r : OpRow) (op : BitVec 4) : Bool := op &&& r.mask == r.pattern

/-- The number of the table's row a command stands for. -/
def Instr.row : Instr → Nat
  | .nop => 0
  | .dec8 _ => 1
  | .dec16 _ => 2
  | .dec24 _ => 3
  | .calStart => 4
  | .calTick => 5
  | .sampleWr _ _ _ => 6
  | .trimWr _ _ _ => 7
  | .acc1gWr _ => 8
  | .reserved1001 => 9
  | .reserved101x _ => 10
  | .reserved11xx _ => 11

/-- The first `m` bytes of the frame port: all that a DEC command with `m = 11*n/8 + 1` reads (20_memory.md R52). -/
def takeFrame (m : Nat) (hm : m ≤ 34) (f : Vector Byte 34) : Vector Byte m :=
  Vector.ofFn fun i : Fin m => f[i.val]'(Nat.lt_of_lt_of_le i.isLt hm)

/-- A frame port whose first `m` bytes are `f` and whose other bytes are zero (log entry 8). -/
def padFrame {m : Nat} (f : Vector Byte m) : Vector Byte 34 :=
  Vector.ofFn fun i : Fin 34 => if h : i.val < m then f[i.val] else 0

/-- The DEC commands of R71: `v = cmd_op[1:0]`, field count `8 * v`, each with the bytes R52 gives it. Called with
`v` in 1, 2, 3 (R74 takes `v = 0` before). -/
def decodeVariant (v : BitVec 2) (f : Vector Byte 34) : Instr :=
  if v = 0b01#2 then .dec8 (takeFrame 12 (by decide) f)
  else if v = 0b10#2 then .dec16 (takeFrame 23 (by decide) f)
  else .dec24 f

/-- RESERVED of R74: `op` in 0x9 to 0xF, by the three rows of the table. -/
def decodeReserved (op : BitVec 4) : Instr :=
  if op = 0b1001#4 then .reserved1001
  else if op.extractLsb' 2 2 = 0b10#2 then .reserved101x op
  else .reserved11xx op

/-- `decode` of R74, in its order, with the operands R72 lists. Total: "every instance decodes all 16 values". -/
def decode (p : CmdPort) : Instr :=
  if p.cmdOp = 0b0000#4 then .nop
  else if p.cmdOp.extractLsb' 2 2 = 0b00#2 then decodeVariant (p.cmdOp.extractLsb' 0 2) p.frameIn
  else if p.cmdOp = 0b0100#4 then .calStart
  else if p.cmdOp = 0b0101#4 then .calTick
  else if p.cmdOp = 0b0110#4 then .sampleWr p.wdX p.wdY p.wdZ
  else if p.cmdOp = 0b0111#4 then .trimWr p.wdX p.wdY p.wdZ
  else if p.cmdOp = 0b1000#4 then .acc1gWr p.wdX
  else decodeReserved p.cmdOp

/-- Why a word is no command. -/
inductive DecodeError where
  | widerThanPort   -- a bit above bit 3 is set: `cmd_op` has four bits (R70, R71); no such word can be on the port
deriving DecidableEq, Repr

/-- The command port that carries the word `w`, `nbits` bits wide, with every operand port zero; refused by name if
the word does not fit the 4-bit port (log entry 7). -/
def portOfWord (nbits w : Nat) : Except DecodeError CmdPort :=
  if w % 2 ^ nbits < 16 then .ok (CmdPort.ofOp (BitVec.ofNat 4 (w % 2 ^ nbits))) else .error .widerThanPort

/-- The command the decoder reads from a word of the opcode table, its operand ports zero. -/
def decodeTableWord (nbits w : Nat) : Option Instr :=
  match portOfWord nbits w with
  | .ok p => some (decode p)
  | .error _ => none

/-! ### The encoder -/

/-- The word on `cmd_op` for a command (R73). -/
def Instr.opcode : Instr → BitVec 4
  | .nop => 0x0#4
  | .dec8 _ => 0x1#4
  | .dec16 _ => 0x2#4
  | .dec24 _ => 0x3#4
  | .calStart => 0x4#4
  | .calTick => 0x5#4
  | .sampleWr _ _ _ => 0x6#4
  | .trimWr _ _ _ => 0x7#4
  | .acc1gWr _ => 0x8#4
  | .reserved1001 => 0x9#4
  | .reserved101x op => op
  | .reserved11xx op => op

/-- `encode i`: the command port that issues `i`, its operands on the ports R72 gives them. The ports `i` does not
read are zero (log entry 8). -/
def encode (i : Instr) : CmdPort :=
  match i with
  | .dec8 f => { CmdPort.ofOp i.opcode with frameIn := padFrame f }
  | .dec16 f => { CmdPort.ofOp i.opcode with frameIn := padFrame f }
  | .dec24 f => { CmdPort.ofOp i.opcode with frameIn := f }
  | .sampleWr x y z => { CmdPort.ofOp i.opcode with wdX := x, wdY := y, wdZ := z }
  | .trimWr x y z => { CmdPort.ofOp i.opcode with wdX := x, wdY := y, wdZ := z }
  | .acc1gWr v => { CmdPort.ofOp i.opcode with wdX := v }
  | .nop => CmdPort.ofOp i.opcode
  | .calStart => CmdPort.ofOp i.opcode
  | .calTick => CmdPort.ofOp i.opcode
  | .reserved1001 => CmdPort.ofOp i.opcode
  | .reserved101x _ => CmdPort.ofOp i.opcode
  | .reserved11xx _ => CmdPort.ofOp i.opcode

end Sys2Proof
end

