-- ==== Sys2Proof/Machine/Chip.lean ====
section
/-!
DEFINITION. The one instance that `step` and `State.reset` are about. Its parameters have no value that Lean could
evaluate (log entry 3): what is proved of it holds for every admitted instance.
-/

namespace Sys2Proof.Machine

/-- The instance: each parameter of R6 at the value left open in Config.lean. -/
def chip : Config where
  calN := BitVec.ofNat 16 (Config.openCalNPred.val + 1)
  divMode := Config.openDivMode
  resetFill := Config.openResetFill
  trimInit := ⟨Config.openTrimInitX, Config.openTrimInitY, Config.openTrimInitZ⟩
  calDoneInit := Config.openCalDoneInit
  calN_ne_zero := fun h => by
    have h1 := congrArg BitVec.toNat h
    have h2 := Config.openCalNPred.isLt
    simp only [BitVec.toNat_ofNat, BitVec.ofNat_eq_ofNat] at h1
    omega

end Sys2Proof.Machine
end

