-- ==== Sys2Proof/Machine/State.lean ====
section
/-!
DEFINITION. The state: RFCORE's registers, exactly those of 10_state.md R20, and beside them the model's own
field for what the host drives (log entry 1).
-/

namespace Sys2Proof.Machine

/-- RFCORE's architectural state (R20): "exactly the following registers; nothing else persists from one command to
the next". -/
structure Regs where
  ch : Vector Half 26      -- CH[0..25], u16, R22
  calCnt : Half            -- CAL_CNT, u16, R23
  calAcc : Axes 32         -- CAL_ACC[X,Y,Z], s32, hidden, R24
  sample : Axes 16         -- SAMPLE[X,Y,Z], s16, R25
  trim : Axes 16           -- TRIM[X,Y,Z], s16, R26
  acc1g : Half             -- ACC_1G, u16, R27
  calDone : Bool           -- CAL_DONE, R28
deriving DecidableEq, Repr

/-- The response bundle (60_exceptions.md R184): an output, never held in a state (R32). -/
structure Response where
  valid : Bool
  status : BitVec 4
  save : Bool
  illegal : Bool
deriving DecidableEq, Repr

/-- RFCORE and its environment. `regs` is RFCORE's state, and all of it (R20, R32). `input` is the environment: the clock
cycles the host has still to drive, oldest first, since the host's `step` has no other argument (log entry 1). The
response is no state: it is a result (R32), `State.response` of Machine/Transact.lean. -/
structure State where
  regs : Regs
  input : List ClockCycle
deriving DecidableEq, Repr

/-- Why RFCORE stops with a fault: never. "RFCORE raises no synchronous exception and has no trap mechanism"
(60_exceptions.md R180), so the type has no constructor (safe: nothing raises one). -/
inductive Fault where
deriving DecidableEq, Repr

/-- Why the model gives a step no meaning. -/
inductive Refusal where
  /-- An arm of `exec` that has no meaning yet would answer it; no arm does (safe: the machine stops). -/
  | notModelled (mnemonic : String)
deriving DecidableEq, Repr

/-- What a step of RFCORE answers. -/
abbrev Result := Host.Outcome State Fault Refusal

/-- Every field zero: no command in the cycle before (R184). -/
def Response.none : Response := ⟨false, 0, false, false⟩

/-- `resp.valid <- 1` and no other field set: "A field a command's rule does not set is 0" (R184). -/
def Response.ok : Response := ⟨true, 0, false, false⟩

/-- The registers after reset (R20, 70_reset_and_hazards.md R200), for an instance `c`. -/
def Regs.reset (c : Config) : Regs where
  ch := Vector.replicate 26 c.resetFill
  calCnt := 0
  calAcc := Axes.zero
  sample := Axes.zero
  trim := c.trimInit
  acc1g := acc1gReset
  calDone := c.calDoneInit

/-- The machine right after a reset edge, the host having presented nothing yet (log entry 1). -/
def State.reset : State := ⟨Regs.reset chip, []⟩

end Sys2Proof.Machine
end

