-- ==== Sys2Proof/Machine/Operands.lean ====
section
/-!
DEFINITION. The operand forms: frame bytes, the bit string of a frame, its 11-bit fields (20_memory.md R52, R53,
40_sbus_unpack.md R100, R102), and the arithmetic of 00_scope.md R9.
-/

namespace Sys2Proof.Machine

/-- `FrameByte(i)` (R9, R52). The commands read it only below `m`; above, it is given as zero. -/
def frameByte {m : Nat} (f : Vector Byte m) (i : Nat) : Byte := f.toList.getD i 0

/-- `W = sum over i of FrameByte(i) * 2^(8*i)` (R53): little-endian, least significant bit first. -/
def frameBits {m : Nat} (f : Vector Byte m) : Nat := f.toList.foldr (fun b w => b.toNat + 256 * w) 0

/-- `field(k) := W[11*k+10 : 11*k]` (R102). -/
def field {m : Nat} (f : Vector Byte m) (k : Nat) : BitVec 11 := BitVec.ofNat 11 (frameBits f >>> (11 * k))

/-- `L = 11*n/8`: the number of field bytes for field count `n`, and the place of the flags byte (R100). -/
def flagsAt (n : Nat) : Nat := 11 * n / 8

/-- `zext_16` (R9) of a field. -/
def zext16 (v : BitVec 11) : Half := v.setWidth 16

/-- `zext_32` (R9). -/
def zext32 (v : Half) : Word := v.setWidth 32

/-- `sext_32` (R9). -/
def sext32 (v : Half) : Word := v.signExtend 32

/-- `wrap_16` (R9): the integer modulo 2^16, read as two's complement by its readers. -/
def wrap16 (i : Int) : Half := BitVec.ofInt 16 i

/-- `DIV(a, b)` (R9) for `b > 0`: toward zero in mode TRUNC, toward minus infinity in mode FLOOR. -/
def div (m : DivMode) (a b : Int) : Int :=
  match m with
  | .trunc => Int.tdiv a b
  | .floor => Int.fdiv a b

end Sys2Proof.Machine
end

