-- ==== Sys2Proof/Machine/Flags.lean ====
section
/-!
DEFINITION. Flags: the flags byte of a frame (40_sbus_unpack.md R101), the digital sentinels (R103), the status mux
(R108, R109), `cal_complete` (10_state.md R29) and the calibration FSM (R30). RFCORE has no condition codes (R31).
-/

namespace Sys2Proof.Machine

/-! ### The flags byte (R101). Bits 7:4 are read by nothing. -/

/-- DIG_A, bit 0: the first digital channel. -/
def digA (f : Byte) : Bool := f.getLsbD 0

/-- DIG_B, bit 1: the second digital channel. -/
def digB (f : Byte) : Bool := f.getLsbD 1

/-- SIGNAL_LOSS, bit 2. -/
def signalLoss (f : Byte) : Bool := f.getLsbD 2

/-- FAILSAFE, bit 3. -/
def failsafe (f : Byte) : Bool := f.getLsbD 3

/-- A digital channel as a sentinel (R103): 1812 if its flag bit is set, 173 if clear. -/
def sentinel (b : Bool) : Half := if b then sentHi else sentLo

/-! ### The decode status (R109) -/

/-- FRAME_COMPLETE, bit 0. -/
def frameComplete : BitVec 4 := 0b0001#4

/-- FRAME_FAILSAFE, bit 1. -/
def frameFailsafe : BitVec 4 := 0b0010#4

/-- FRAME_DROPPED, bit 3. -/
def frameDropped : BitVec 4 := 0b1000#4

/-- `STATUS(F)` (R108): failsafe before signal loss. -/
def statusOf (f : Byte) : BitVec 4 :=
  if failsafe f then frameComplete ||| frameFailsafe
  else if signalLoss f then frameComplete ||| frameDropped
  else frameComplete

/-! ### Calibration (R29, R30) -/

/-- `cal_complete = (CAL_CNT = 0)` (R29). -/
def calComplete (r : Regs) : Bool := r.calCnt == 0

/-- The FSM states of R30. -/
inductive Phase where
  | idle
  | first
  | accumulating
  | finalizing
deriving DecidableEq, Repr

/-- The condition of each FSM state (R30), "a function of CAL_CNT alone". First and Finalizing hold together when
`CAL_N = 1`. -/
def inPhase (c : Config) (r : Regs) : Phase → Bool
  | .idle => r.calCnt == 0
  | .first => r.calCnt == c.calN
  | .accumulating => decide (2 ≤ r.calCnt.toNat) && decide (r.calCnt.toNat ≤ c.n - 1)
  | .finalizing => r.calCnt == 1

end Sys2Proof.Machine
end

