-- ==== Sys2Proof/Machine/Ops.lean ====
section
/-!
DEFINITION. The named operations: what a cycle does with the input pins and the registers, the shared decode operation
(40_sbus_unpack.md R104), the calibration arithmetic (41_calibration.md R133 to R136) and the read port (20_memory.md
R54, R55). RFCORE has no exception entry and no return from one (60_exceptions.md R180, R187), so none stands here.
-/

namespace Sys2Proof.Machine

/-! ### A cycle -/

/-- The input pins in this cycle: the oldest cycle the host has still to drive, an idle one if there is none. -/
def State.pins (s : State) : ClockCycle := s.input.headD ClockCycle.idle

/-- The clock edge has passed for the host's pins: the next cycle of the input is due. -/
def State.nextCycle (s : State) : State := { s with input := s.input.tail }

/-- The edge that ends a cycle (60_exceptions.md R186): all register writes of `o` at once. The response in `o` is a
result and no state (10_state.md R32), so it is not written: `State.response` (Machine/Transact.lean) gives it. -/
def State.commit (s : State) (o : Regs × Response) : Result := .next { s with regs := o.1 }

/-- A cycle with `rst = 1` (70_reset_and_hazards.md R200): every register takes its reset value, no response. -/
def resetCycle (s : State) : Result := s.commit (Regs.reset chip, Response.none)

/-- A cycle with `cmd_valid = 0` (30_encoding.md R70): no state changes, the response is all zero. -/
def idleCycle (s : State) : Result := s.commit (s.regs, Response.none)

/-! ### The shared decode operation (R104) -/

/-- CH after `DECODE(n)`: fields in slots 0 to n-1, the digital channels in n and n+1, the others kept. -/
def channelsAfter {m : Nat} (n : Nat) (f : Vector Byte m) (ch : Vector Half 26) : Vector Half 26 :=
  Vector.ofFn fun k : Fin 26 =>
    if k.val < n then zext16 (field f k.val)
    else if k.val = n then sentinel (digA (frameByte f (flagsAt n)))
    else if k.val = n + 1 then sentinel (digB (frameByte f (flagsAt n)))
    else ch[k.val]

/-- `DECODE(n)` (R104). -/
def decodeFrame {m : Nat} (n : Nat) (f : Vector Byte m) (r : Regs) : Regs × Response :=
  ({ r with ch := channelsAfter n f r.ch },
   { Response.ok with status := statusOf (frameByte f (flagsAt n)) })

/-! ### The calibration arithmetic -/

/-- `sum_a` of a tick (R133, R134), in mathematical integers (R142). -/
def tickSum (c : Config) (r : Regs) (a : Axis) : Int :=
  (if inPhase c r .first then 0 else (r.calAcc.lane a).toInt) + (r.sample.lane a).toInt

/-- `CAL_ACC[a] <- sum_a` (R134). A sum that does not fit `s32` is unreachable (R142): free (log entry 4). -/
def accumulatorOf (sum : Int) : Word :=
  if -2147483648 ≤ sum ∧ sum < 2147483648 then BitVec.ofInt 32 sum else Config.freeAccumulator sum

/-- `DIV(sum + h, CAL_N)` (R136). -/
def average (c : Config) (sum : Int) : Int := div c.divMode (sum + c.half) c.n

/-- The committed trims (R136): only lane Z subtracts ACC_1G. -/
def commitTrim (c : Config) (r : Regs) : Axes 16 where
  x := wrap16 (average c (tickSum c r .x))
  y := wrap16 (average c (tickSum c r .y))
  z := wrap16 (average c (tickSum c r .z) - r.acc1g.toNat)

/-! ### The read port -/

/-- CAL_FLAGS (R55): bit 0 `cal_complete`, bit 1 CAL_DONE, bits 31:2 zero. -/
def calFlags (r : Regs) : Word :=
  (if calComplete r then 1 else 0) ||| (if r.calDone then 2 else 0)

/-- `Read(state, rd_addr)` (R54) by the map of R55. A reserved address reads 0 (R56). -/
def readPort (c : Config) (r : Regs) (addr : BitVec 6) : Word :=
  if h : addr.toNat < 26 then zext32 r.ch[addr.toNat]
  else if addr = 0x20#6 then zext32 r.calCnt
  else if addr = 0x21#6 then sext32 r.trim.x
  else if addr = 0x22#6 then sext32 r.trim.y
  else if addr = 0x23#6 then sext32 r.trim.z
  else if addr = 0x24#6 then sext32 r.sample.x
  else if addr = 0x25#6 then sext32 r.sample.y
  else if addr = 0x26#6 then sext32 r.sample.z
  else if addr = 0x27#6 then zext32 r.acc1g
  else if addr = 0x28#6 then calFlags r
  else if addr = 0x29#6 then zext32 c.calN
  else 0

/-- Everything RFCORE drives in one cycle. -/
structure Outputs where
  rdData : Word
  calComplete : Bool
  calDone : Bool
  resp : Response
deriving DecidableEq, Repr

/-- The outputs in the cycle of state `s`: the read port answers this cycle's `rd_addr` from the state before this
cycle's command (R54, R212), the level outputs follow the registers (60_exceptions.md R185), and `resp.*` carries
`before`, the response to the cycle before (R184). -/
def State.outputs (s : State) (before : Response) : Outputs where
  rdData := readPort chip s.regs s.pins.rdAddr
  calComplete := Machine.calComplete s.regs
  calDone := s.regs.calDone
  resp := before

end Sys2Proof.Machine
end

