-- ==== Sys2Proof/Machine/Calibration.lean ====
section
/-!
DEFINITION. The calibration engine: CAL_START and CAL_TICK (41_calibration.md), each first as a function of the
registers for any instance, then as the meaning of the command on `chip`.
-/

namespace Sys2Proof.Machine

/-- CAL_START (R130): `CAL_CNT <- CAL_N`, nothing else. -/
def calStart (c : Config) (r : Regs) : Regs × Response := ({ r with calCnt := c.calN }, Response.ok)

/-- A tick with `CAL_CNT > 0` (R131, R133 to R138): accumulate, blank SAMPLE, blank or commit TRIM, count down. -/
def activeTick (c : Config) (r : Regs) : Regs × Response :=
  ({ r with
      calAcc := Axes.ofLanes fun a => accumulatorOf (tickSum c r a)
      sample := Axes.zero
      trim := if inPhase c r .finalizing then commitTrim c r else Axes.zero
      calDone := r.calDone || inPhase c r .finalizing
      calCnt := r.calCnt - 1 },
   { Response.ok with save := inPhase c r .finalizing })

/-- CAL_TICK (R131): an idle tick changes nothing (R132). -/
def calTick (c : Config) (r : Regs) : Regs × Response :=
  if inPhase c r .idle then (r, Response.ok) else activeTick c r

/-- CAL_START on the chip. -/
def execCalStart (s : State) : Result := s.commit (calStart chip s.regs)

/-- CAL_TICK on the chip. -/
def execCalTick (s : State) : Result := s.commit (calTick chip s.regs)

end Sys2Proof.Machine
end

