-- ==== Sys2Proof/Machine/HostAccess.lean ====
section
/-!
DEFINITION. The host access commands: NOP, SAMPLE_WR, TRIM_WR, ACC1G_WR and the reserved opcodes
(42_host_access.md).
-/

namespace Sys2Proof.Machine

/-- NOP on the registers (R160): nothing but `resp.valid`. -/
def nop (r : Regs) : Regs × Response := (r, Response.ok)

/-- NOP (R160). -/
def execNop (s : State) : Result := s.commit (nop s.regs)

/-- SAMPLE_WR on the registers (R162): the 16 bits of each port, unchanged. -/
def sampleWr (x y z : Half) (r : Regs) : Regs × Response := ({ r with sample := ⟨x, y, z⟩ }, Response.ok)

/-- SAMPLE_WR (R162). -/
def execSampleWr (x y z : Half) (s : State) : Result := s.commit (sampleWr x y z s.regs)

/-- TRIM_WR on the registers (R163): the 16 bits of each port, unchanged. -/
def trimWr (x y z : Half) (r : Regs) : Regs × Response := ({ r with trim := ⟨x, y, z⟩ }, Response.ok)

/-- TRIM_WR (R163). -/
def execTrimWr (x y z : Half) (s : State) : Result := s.commit (trimWr x y z s.regs)

/-- ACC1G_WR on the registers (R164): the 16 bits of `wd_x`, unchanged. -/
def acc1gWr (v : Half) (r : Regs) : Regs × Response := ({ r with acc1g := v }, Response.ok)

/-- ACC1G_WR (R164). -/
def execAcc1gWr (v : Half) (s : State) : Result := s.commit (acc1gWr v s.regs)

/-- RESERVED on the registers (R166): nothing written, `resp.illegal` set. -/
def reservedOp (r : Regs) : Regs × Response := (r, { Response.ok with illegal := true })

/-- The reserved opcode 1001 (R166). -/
def execReserved1001 (s : State) : Result := s.commit (reservedOp s.regs)

/-- The reserved opcodes 101x (R166): the opcode has no effect. -/
def execReserved101x (_op : BitVec 4) (s : State) : Result := s.commit (reservedOp s.regs)

/-- The reserved opcodes 11xx (R166): the opcode has no effect. -/
def execReserved11xx (_op : BitVec 4) (s : State) : Result := s.commit (reservedOp s.regs)

end Sys2Proof.Machine
end

