-- ==== Sys2Proof/Machine/Sbus.lean ====
section
/-!
DEFINITION. The SBUS frame unpacker: DEC8, DEC16, DEC24 (40_sbus_unpack.md). Each is the shared `DECODE(n)` of R104 on
the bytes its command reads.
-/

namespace Sys2Proof.Machine

/-- DEC8 (R105): `DECODE(8)` on frame bytes 0 to 11. -/
def execDec8 (f : Vector Byte 12) (s : State) : Result := s.commit (decodeFrame 8 f s.regs)

/-- DEC16 (R106): `DECODE(16)` on frame bytes 0 to 22. -/
def execDec16 (f : Vector Byte 23) (s : State) : Result := s.commit (decodeFrame 16 f s.regs)

/-- DEC24 (R107): `DECODE(24)` on frame bytes 0 to 33. -/
def execDec24 (f : Vector Byte 34) (s : State) : Result := s.commit (decodeFrame 24 f s.regs)

end Sys2Proof.Machine
end

