-- ==== Sys2Proof/Machine/Dispatch.lean ====
section
/-!
DEFINITION. The dispatch: one arm per command, one meaning per arm.
-/

namespace Sys2Proof.Machine

open Sys2Proof

def exec (i : Instr) (s : State) : Host.Outcome State Fault Refusal :=
  match i with
  | .nop => Sys2Proof.Machine.execNop s
  | .dec8 f => Sys2Proof.Machine.execDec8 f s
  | .dec16 f => Sys2Proof.Machine.execDec16 f s
  | .dec24 f => Sys2Proof.Machine.execDec24 f s
  | .calStart => Sys2Proof.Machine.execCalStart s
  | .calTick => Sys2Proof.Machine.execCalTick s
  | .sampleWr x y z => Sys2Proof.Machine.execSampleWr x y z s
  | .trimWr x y z => Sys2Proof.Machine.execTrimWr x y z s
  | .acc1gWr v => Sys2Proof.Machine.execAcc1gWr v s
  | .reserved1001 => Sys2Proof.Machine.execReserved1001 s
  | .reserved101x op => Sys2Proof.Machine.execReserved101x op s
  | .reserved11xx op => Sys2Proof.Machine.execReserved11xx op s

end Sys2Proof.Machine
end

