-- ==== Sys2Proof/Machine/Step.lean ====
section
/-!
DEFINITION. One step is one clock cycle (70_reset_and_hazards.md R211).
-/

namespace Sys2Proof.Machine

/-- One clock cycle: reset wins over the command (R200); a command, if `cmd_valid`, is decoded and executed (R70);
otherwise every register holds its value (60_exceptions.md R194). -/
def step (s : State) : Host.Outcome State Fault Refusal :=
  if s.pins.rst then resetCycle s.nextCycle
  else if s.pins.cmdValid then exec (decode s.pins.port) s.nextCycle
  else idleCycle s.nextCycle

/-- `s` with the host about to issue the table word `w` in the next cycle, every operand port and
`rd_addr` zero (log entries 6 and 12). A
word that no 4-bit port can carry is not placed. -/
def State.withFetchWord (s : State) (nbits w : Nat) : State :=
  match portOfWord nbits w with
  | .ok p => { s with input := ClockCycle.issue p :: s.input }
  | .error _ => s

end Sys2Proof.Machine
end

