-- ==== Sys2Proof/Assembly.lean ====
section
/-!
DEFINITION. The assembly lines of 30_encoding.md R76 and the pseudo-commands of R77, as data, and which of them an
assembler accepts. They are the host's notation and no part of the hardware.
-/

namespace Sys2Proof

/-- One line of a program. A `DEC` line lists its frame bytes, byte 0 first; `read` and `idle` are host notation and
no commands (R76); `trimClr`, `calStep` and `calRun` are pseudo-commands (R77). A reserved opcode has no syntax. -/
inductive AsmLine where
  | nop
  | dec8 (bytes : List Nat)
  | dec16 (bytes : List Nat)
  | dec24 (bytes : List Nat)
  | calStart
  | calTick
  | sampleWr (x y z : Int)
  | trimWr (x y z : Int)
  | acc1gWr (v : Int)
  | idle
  | read (addr : Nat)
  | trimClr
  | calStep (x y z : Int)
  | calRun (x y z : Int)
deriving DecidableEq, Repr

/-- "each in [-32768, 32767]" (R76). -/
def isS16 (i : Int) : Bool := decide (-32768 ≤ i) && decide (i ≤ 32767)

/-- "v in [0, 65535]" (R76). -/
def isU16 (i : Int) : Bool := decide (0 ≤ i) && decide (i ≤ 65535)

/-- Bytes, and no more of them than the variant reads (R76, 20_memory.md R52). -/
def areBytes (most : Nat) (bs : List Nat) : Bool := decide (bs.length ≤ most) && bs.all (· < 256)

/-- "An assembler refuses an operand outside its range and refuses a DEC line with more bytes than its variant reads"
(R76). A read address has six bits (R54). -/
def AsmLine.wf : AsmLine → Bool
  | .nop => true
  | .dec8 bs => areBytes 12 bs
  | .dec16 bs => areBytes 23 bs
  | .dec24 bs => areBytes 34 bs
  | .calStart => true
  | .calTick => true
  | .sampleWr x y z => isS16 x && isS16 y && isS16 z
  | .trimWr x y z => isS16 x && isS16 y && isS16 z
  | .acc1gWr v => isU16 v
  | .idle => true
  | .read a => decide (a < 64)
  | .trimClr => true
  | .calStep x y z => isS16 x && isS16 y && isS16 z
  | .calRun x y z => isS16 x && isS16 y && isS16 z

end Sys2Proof
end

