-- ==== Sys2Proof/Machine/Assembler.lean ====
section
/-!
DEFINITION. The assembler of 30_encoding.md R76 and R77: from a line's text to a line, from lines to the clock cycles
the host drives. Nothing of the machine uses it.
-/

namespace Sys2Proof.Machine

/-! ### Lines to cycles -/

/-- The expansion of a pseudo-command (R77); any other line stands for itself. -/
def expand (c : Config) : AsmLine → List AsmLine
  | .trimClr => [.trimWr 0 0 0]
  | .calStep x y z => [.sampleWr x y z, .calTick]
  | .calRun x y z => .calStart :: (List.replicate c.n [AsmLine.sampleWr x y z, .calTick]).flatten
  | l => [l]

/-- The bytes of a DEC line, "omitted bytes are 0x00" (R76). -/
def lineFrame (m : Nat) (bs : List Nat) : Vector Byte m :=
  Vector.ofFn fun i : Fin m => BitVec.ofNat 8 (bs.getD i.val 0)

/-- The command of a line that is one. -/
def lineCommand : AsmLine → Option Instr
  | .nop => some .nop
  | .dec8 bs => some (.dec8 (lineFrame 12 bs))
  | .dec16 bs => some (.dec16 (lineFrame 23 bs))
  | .dec24 bs => some (.dec24 (lineFrame 34 bs))
  | .calStart => some .calStart
  | .calTick => some .calTick
  | .sampleWr x y z => some (.sampleWr (BitVec.ofInt 16 x) (BitVec.ofInt 16 y) (BitVec.ofInt 16 z))
  | .trimWr x y z => some (.trimWr (BitVec.ofInt 16 x) (BitVec.ofInt 16 y) (BitVec.ofInt 16 z))
  | .acc1gWr v => some (.acc1gWr (BitVec.ofInt 16 v))
  | .idle => none
  | .read _ => none
  | .trimClr => none
  | .calStep _ _ _ => none
  | .calRun _ _ _ => none

/-- The cycle of a line that is a command or IDLE, `rd_addr` 0 unless a READ sets it (log entry 12). -/
def lineCycle (l : AsmLine) : ClockCycle :=
  match lineCommand l with
  | some i => ClockCycle.issue (encode i)
  | none => ClockCycle.idle

/-- The cycles of expanded lines. `READ addr` puts `addr` on the read port in the cycle after the preceding command
(R76), which the next command may use as well; a second READ, or the end of the program, takes an idle cycle, in which
no register changes (log entry 10). -/
def schedule : Option (BitVec 6) → List AsmLine → List ClockCycle
  | none, [] => []
  | some a, [] => [{ ClockCycle.idle with rdAddr := a }]
  | none, .read b :: rest => schedule (some (BitVec.ofNat 6 b)) rest
  | some a, .read b :: rest => { ClockCycle.idle with rdAddr := a } :: schedule (some (BitVec.ofNat 6 b)) rest
  | none, l :: rest => lineCycle l :: schedule none rest
  | some a, l :: rest => { lineCycle l with rdAddr := a } :: schedule none rest

/-- A program's cycles, or nothing if the assembler refuses one of its lines. -/
def assemble (c : Config) (lines : List AsmLine) : Option (List ClockCycle) :=
  if lines.all AsmLine.wf then some (schedule none (lines.flatMap (expand c))) else none

/-! ### Text to lines -/

/-- The value of a hexadecimal digit, below `base` (10 or 16). -/
def digit (base : Nat) (ch : Char) : Option Nat :=
  let n := ch.toNat
  let v := if 48 ≤ n ∧ n ≤ 57 then n - 48
    else if 65 ≤ n ∧ n ≤ 70 then n - 55
    else if 97 ≤ n ∧ n ≤ 102 then n - 87
    else 99
  if v < base then some v else none

/-- The digits of a number, most significant first. -/
def digits (base : Nat) : Nat → List Char → Option Nat
  | acc, [] => some acc
  | acc, ch :: rest => (digit base ch).bind fun d => digits base (base * acc + d) rest

/-- A non-empty run of digits. -/
def natOf (base : Nat) (cs : List Char) : Option Nat := if cs.isEmpty then none else digits base 0 cs

/-- "numbers are decimal, or hex with 0x; signed values may carry -" (R76). -/
def unsignedOf : List Char → Option Nat
  | '0' :: 'x' :: rest => natOf 16 rest
  | cs => natOf 10 cs

/-- A number with an optional sign. -/
def signedOf : List Char → Option Int
  | '-' :: rest => (unsignedOf rest).map fun n => -(n : Int)
  | cs => (unsignedOf cs).map fun n => (n : Int)

/-- The words of a line: separated by blanks, with each comma and bracket a word of its own, up to the `;` that starts
a comment (R76). `w` is the word read so far, in reverse. -/
def wordsOf : List Char → List Char → List (List Char)
  | w, [] => if w.isEmpty then [] else [w.reverse]
  | w, ch :: rest =>
    let done := if w.isEmpty then [] else [w.reverse]
    if ch = ';' then done
    else if ch = ' ' ∨ ch = '\t' then done ++ wordsOf [] rest
    else if ch = ',' ∨ ch = '[' ∨ ch = ']' then done ++ [ch] :: wordsOf [] rest
    else wordsOf (ch :: w) rest

/-- Frame bytes "in hex, byte 0 first" up to the closing bracket that ends the line (R76). Each is bare hex digits, as in
the programs of 95_test_vectors.md: a byte with `0x` is refused (DESIGN CHOICE, log entry 10). -/
def bytesOf : List (List Char) → Option (List Nat)
  | [[']']] => some []
  | w :: rest => (natOf 16 w).bind fun b => (bytesOf rest).map fun bs => b :: bs
  | [] => none

/-- The three operands `x, y, z`. -/
def tripleOf (k : Int → Int → Int → AsmLine) : List (List Char) → Option AsmLine
  | [x, [','], y, [','], z] =>
    (signedOf x).bind fun x => (signedOf y).bind fun y => (signedOf z).map fun z => k x y z
  | _ => none

/-- The bracketed bytes of a DEC line. -/
def frameOf (k : List Nat → AsmLine) : List (List Char) → Option AsmLine
  | ['['] :: rest => (bytesOf rest).map k
  | _ => none

/-- A line without operands. -/
def bareOf (l : AsmLine) (ops : List (List Char)) : Option AsmLine := if ops.isEmpty then some l else none

/-- A line from its mnemonic and the words after it (R76, R77). -/
def lineOf (m : List Char) (ops : List (List Char)) : Option AsmLine :=
  if m = "NOP".toList then bareOf .nop ops
  else if m = "DEC8".toList then frameOf .dec8 ops
  else if m = "DEC16".toList then frameOf .dec16 ops
  else if m = "DEC24".toList then frameOf .dec24 ops
  else if m = "CAL_START".toList then bareOf .calStart ops
  else if m = "CAL_TICK".toList then bareOf .calTick ops
  else if m = "SAMPLE_WR".toList then tripleOf .sampleWr ops
  else if m = "TRIM_WR".toList then tripleOf .trimWr ops
  else if m = "ACC1G_WR".toList then
    match ops with
    | [v] => (unsignedOf v).map fun n => .acc1gWr n
    | _ => none
  else if m = "IDLE".toList then bareOf .idle ops
  else if m = "READ".toList then
    match ops with
    | [a] => (unsignedOf a).map .read
    | _ => none
  else if m = "TRIM_CLR".toList then bareOf .trimClr ops
  else if m = "CAL_STEP".toList then tripleOf .calStep ops
  else if m = "CAL_RUN".toList then tripleOf .calRun ops
  else none

/-- One line of text: no lines if it holds nothing but a comment, refused if it is of no form of R76 and R77 or an
operand is out of its range. -/
def parseLine (text : List Char) : Option (List AsmLine) :=
  match wordsOf [] text with
  | [] => some []
  | m :: ops => (lineOf m ops).bind fun l => if l.wf then some [l] else none

end Sys2Proof.Machine
end

