-- ==== Sys2Proof/Machine/Transact.lean ====
section
/-!
DEFINITION. RFCORE on its own, as 10_state.md R32 and 60_exceptions.md R184 describe it: its state is `Regs` and nothing
else, the input pins are an argument of a step and the response is a result of it, and the parameters are a `Config`.
`step` (Machine/Step.lean) is the registers' part of this transaction in the host's form, whose `State` carries the pins
in (log entry 1); `respond` and `State.response` are the response's part (log entry 2).
-/

namespace Sys2Proof.Machine

/-- What a command makes of the registers, and its response, on the instance `c`. -/
def effect (c : Config) : Instr → Regs → Regs × Response
  | .nop, r => nop r
  | .dec8 f, r => decodeFrame 8 f r
  | .dec16 f, r => decodeFrame 16 f r
  | .dec24 f, r => decodeFrame 24 f r
  | .calStart, r => calStart c r
  | .calTick, r => calTick c r
  | .sampleWr x y z, r => sampleWr x y z r
  | .trimWr x y z, r => trimWr x y z r
  | .acc1gWr v, r => acc1gWr v r
  | .reserved1001, r => reservedOp r
  | .reserved101x _, r => reservedOp r
  | .reserved11xx _, r => reservedOp r

/-- `step(state, cmd, ports) = (state', resp)` (R184): the registers after a cycle with pins `p` and the response to it.
Reset wins over the command (70_reset_and_hazards.md R200); without a command nothing changes (30_encoding.md R70). -/
def transact (c : Config) (r : Regs) (p : ClockCycle) : Regs × Response :=
  if p.rst then (Regs.reset c, Response.none)
  else if p.cmdValid then effect c (decode p.port) r
  else (r, Response.none)

/-- The response of `exec i s` (R184). -/
def respond (i : Instr) (s : State) : Response := (effect chip i s.regs).2

/-- The response of `step s` (R184), driven in the cycle after it (Machine/Waves.lean). -/
def State.response (s : State) : Response := (transact chip s.regs s.pins).2

end Sys2Proof.Machine
end

