-- ==== Sys2Proof/Machine/Waves.lean ====
section
/-!
DEFINITION. What the host sees on RFCORE's output pins, cycle by cycle, with the one-cycle delay of the response
(60_exceptions.md R184, 70_reset_and_hazards.md R212). The response on its way is an argument here, in no state.
-/

namespace Sys2Proof.Machine

/-- The outputs in `k` cycles from `s`, `before` being the response to the cycle before the first (`Response.none` after
reset, R200). Each cycle's response is driven in the next cycle and in no other. -/
def waves : Nat → Response → State → List Outputs
  | 0, _, _ => []
  | k + 1, before, s =>
    s.outputs before ::
      match step s with
      | .next t => waves k s.response t
      | .fault _ => []
      | .refused _ => []

end Sys2Proof.Machine
end

