-- ==== Sys2Proof/Safety.lean ====
section
/-!
DEFINITION. What counts as a safe run, and the invariants of the reachable states, in the terms claims use.
-/

namespace Sys2Proof.Machine

/-- A result that is a next state: RFCORE goes on. -/
def Completes (o : Result) : Prop := ∃ t, o = .next t

/-- A run from `s` is safe: however many cycles it has, it stops neither with a fault nor with a refusal. -/
def SafeRun (s : State) : Prop := ∀ k, ∃ t, Sys2Proof.core.run k s = .next t

/-- `0 <= CAL_CNT <= CAL_N` (10_state.md R23). -/
def CountBounded (c : Config) (r : Regs) : Prop := r.calCnt.toNat ≤ c.n

/-- The ticks since the last first cycle, when `CAL_CNT < CAL_N` (41_calibration.md R134). -/
def ticksDone (c : Config) (r : Regs) : Int := c.n - r.calCnt.toNat

/-- Once a run has begun to accumulate, each lane of CAL_ACC lies between the sums of as many least and greatest
samples as there were ticks (R142, which states the wider bound `|CAL_ACC[a]| <= (CAL_N - CAL_CNT) * 32768`). -/
def AccBounded (c : Config) (r : Regs) : Prop :=
  r.calCnt.toNat < c.n → ∀ a : Axis,
    -32768 * ticksDone c r ≤ (r.calAcc.lane a).toInt ∧ (r.calAcc.lane a).toInt ≤ 32767 * ticksDone c r

/-- The invariant of the calibration engine. -/
def Regs.Inv (c : Config) (r : Regs) : Prop := CountBounded c r ∧ AccBounded c r

/-- Every channel slot holds an 11-bit value or the reset fill (10_state.md R22, 40_sbus_unpack.md R110). -/
def ChannelsLegal (c : Config) (r : Regs) : Prop :=
  ∀ k : Fin 26, r.ch[k].toNat ≤ 2047 ∨ r.ch[k] = c.resetFill

end Sys2Proof.Machine
end

