-- ==== Sys2Proof/Certificates/Slice0/Obligations.lean ====
section
/-!
DEFINITION. The statements for the provers, from the numbered rules of spec/. `chip` is an instance whose parameters
Lean cannot evaluate: a statement about it holds for every admitted instance. A statement about "every instance"
quantifies over `Config`.
-/

namespace Sys2Proof.Claims

open Sys2Proof Machine

/-! ### Words the statements use, in the terms of the rules -/

/-- The response with the given status, and no other field set but `valid`. -/
def statusResponse (st : BitVec 4) : Response := ⟨true, st, false, false⟩

/-- `W[i]`, bit `i mod 8` of `FrameByte(i div 8)` (20_memory.md R53). -/
def FrameBit {m : Nat} (f : Vector Byte m) (i : Nat) : Bool := (f.toList.getD (i / 8) 0).getLsbD (i % 8)

/-- The status word of a flags byte (40_sbus_unpack.md R108, the numbers of R109). -/
def StatusWord (F : Byte) : BitVec 4 := if F.getLsbD 3 then 0x3 else if F.getLsbD 2 then 0x9 else 0x1

/-- The reset value of every register (10_state.md R20). -/
def AtReset (r : Regs) : Prop :=
  (∀ k : Fin 26, r.ch[k] = chip.resetFill) ∧ r.calCnt = 0 ∧ (∀ a, r.calAcc.lane a = 0) ∧ (∀ a, r.sample.lane a = 0)
    ∧ r.trim = chip.trimInit ∧ r.acc1g = 256 ∧ r.calDone = chip.calDoneInit

/-- No calibration register differs. -/
def SameCalibration (r r' : Regs) : Prop :=
  r'.calCnt = r.calCnt ∧ r'.calAcc = r.calAcc ∧ r'.sample = r.sample ∧ r'.trim = r.trim ∧ r'.acc1g = r.acc1g
    ∧ r'.calDone = r.calDone

/-- `DECODE(n)` of R104 with the fields of R102 bit by bit, the sentinels of R103, the status of R108. The flags byte
is `FrameByte(11*n/8)` (R100). -/
def DecodeEffect {m : Nat} (n : Nat) (f : Vector Byte m) (s t : State) (resp : Response) : Prop :=
  (∀ k : Fin 26, k.val < n → ∀ j < 16,
      t.regs.ch[k].getLsbD j = (decide (j < 11) && FrameBit f (11 * k.val + j)))
  ∧ (∀ k : Fin 26, k.val = n → t.regs.ch[k] = if (f.toList.getD (11 * n / 8) 0).getLsbD 0 then 1812 else 173)
  ∧ (∀ k : Fin 26, k.val = n + 1 → t.regs.ch[k] = if (f.toList.getD (11 * n / 8) 0).getLsbD 1 then 1812 else 173)
  ∧ (∀ k : Fin 26, n + 1 < k.val → t.regs.ch[k] = s.regs.ch[k])
  ∧ SameCalibration s.regs t.regs
  ∧ resp = statusResponse (StatusWord (f.toList.getD (11 * n / 8) 0))
  ∧ t.input = s.input

/-- The command `i` is a decode of field count `n`. -/
def IsDec (n : Nat) (i : Instr) : Prop :=
  (∃ f, i = .dec8 f ∧ n = 8) ∨ (∃ f, i = .dec16 f ∧ n = 16) ∨ (∃ f, i = .dec24 f ∧ n = 24)

/-- The flags byte of a DEC command: byte 11, 22 or 33 of its frame (R100). -/
def FlagsByte : Instr → Byte
  | .dec8 f => f[11]
  | .dec16 f => f[22]
  | .dec24 f => f[33]
  | _ => 0

/-- A command of 42_host_access.md. -/
def IsHostAccess : Instr → Prop
  | .nop => True
  | .sampleWr _ _ _ => True
  | .trimWr _ _ _ => True
  | .acc1gWr _ => True
  | .reserved1001 => True
  | .reserved101x _ => True
  | .reserved11xx _ => True
  | .dec8 _ => False
  | .dec16 _ => False
  | .dec24 _ => False
  | .calStart => False
  | .calTick => False

/-- `DIV(a, b)` (00_scope.md R9) for `b > 0`, from the definition of the two roundings: Lean's `/` on integers rounds
toward minus infinity here. -/
def RoundedQuotient (m : DivMode) (a b : Int) : Int :=
  match m with
  | .floor => a / b
  | .trunc => if 0 ≤ a then a / b else -(-a / b)

/-- What is subtracted before the store of a lane's trim: ACC_1G in lane Z, nothing in the others (R136). -/
def Offset (r : Regs) : Axis → Int
  | .x => 0
  | .y => 0
  | .z => r.acc1g.toNat

/-- `base_a` plus the sample (41_calibration.md R133, R134). -/
def TickSum (c : Config) (r : Regs) (a : Axis) : Int :=
  (if r.calCnt = c.calN then 0 else (r.calAcc.lane a).toInt) + (r.sample.lane a).toInt

/-- The whole of CAL_TICK, R131: registers before and after, and the response. What a lane stores and commits is stated
where its sum fits `s32`, as it does in every reachable state (R142). -/
def TickEffect (c : Config) (r r' : Regs) (resp : Response) : Prop :=
  (r.calCnt = 0 → r' = r ∧ resp = ⟨true, 0, false, false⟩)
  ∧ (r.calCnt ≠ 0 →
      r'.calCnt.toNat + 1 = r.calCnt.toNat
      ∧ (∀ a, -2147483648 ≤ TickSum c r a → TickSum c r a ≤ 2147483647 → (r'.calAcc.lane a).toInt = TickSum c r a)
      ∧ (∀ a, r'.sample.lane a = 0)
      ∧ r'.ch = r.ch ∧ r'.acc1g = r.acc1g
      ∧ (r.calCnt ≠ 1 → (∀ a, r'.trim.lane a = 0) ∧ r'.calDone = r.calDone ∧ resp = ⟨true, 0, false, false⟩)
      ∧ (r.calCnt = 1 →
          (∀ a, -2147483648 ≤ TickSum c r a → TickSum c r a ≤ 2147483647 → r'.trim.lane a
            = BitVec.ofInt 16 (RoundedQuotient c.divMode (TickSum c r a + ((c.calN.toNat / 2 : Nat) : Int)) c.calN.toNat
                - Offset r a))
          ∧ r'.calDone = true ∧ resp = ⟨true, 0, true, false⟩))

/-- `CAL_STEP` (30_encoding.md R77) for each sample in turn: SAMPLE_WR, then CAL_TICK. -/
def stepSamples (c : Config) : List (Axes 16) → Regs → Regs
  | [], r => r
  | v :: vs, r => stepSamples c vs (calTick c (sampleWr v.x v.y v.z r).1).1

/-- The sum of the samples in one lane. -/
def laneSum (a : Axis) (vs : List (Axes 16)) : Int := (vs.map fun v => (v.lane a).toInt).sum

/-- What the host observes after tick `k` of a run that began from `r`, before its final cycle (R145). -/
def InRun (c : Config) (k : Nat) (r r' : Regs) : Prop :=
  r'.calCnt.toNat = c.calN.toNat - k ∧ calComplete r' = false ∧ (∀ a, r'.trim.lane a = 0)
    ∧ (∀ a, r'.sample.lane a = 0) ∧ r'.calDone = r.calDone

end Sys2Proof.Claims

open Sys2Proof Sys2Proof.Machine Sys2Proof.Claims

/-! ### Encoding and decoding -/

/-- 30_encoding.md R74: the decoder on all sixteen opcodes, with the operands of R72; "Every 4-bit value decodes to
exactly one row". -/
def Obligations.DecoderFollowsOpcodeMap : Prop :=
  ∀ p : CmdPort,
    (p.cmdOp = 0x0 → decode p = .nop)
    ∧ (p.cmdOp = 0x1 → ∃ f, decode p = .dec8 f ∧ ∀ i (h : i < 12), f[i] = p.frameIn[i])
    ∧ (p.cmdOp = 0x2 → ∃ f, decode p = .dec16 f ∧ ∀ i (h : i < 23), f[i] = p.frameIn[i])
    ∧ (p.cmdOp = 0x3 → decode p = .dec24 p.frameIn)
    ∧ (p.cmdOp = 0x4 → decode p = .calStart)
    ∧ (p.cmdOp = 0x5 → decode p = .calTick)
    ∧ (p.cmdOp = 0x6 → decode p = .sampleWr p.wdX p.wdY p.wdZ)
    ∧ (p.cmdOp = 0x7 → decode p = .trimWr p.wdX p.wdY p.wdZ)
    ∧ (p.cmdOp = 0x8 → decode p = .acc1gWr p.wdX)
    ∧ (p.cmdOp = 0x9 → decode p = .reserved1001)
    ∧ (p.cmdOp = 0xA ∨ p.cmdOp = 0xB → decode p = .reserved101x p.cmdOp)
    ∧ (12 ≤ p.cmdOp.toNat → decode p = .reserved11xx p.cmdOp)
    ∧ (∀ k : Fin 12, ((opcodeTable[k.val]?).any fun row => p.cmdOp &&& row.mask == row.pattern) = true
        ↔ k.val = (decode p).row)

/-- Nine words of R73's map, bit by bit, with zero on the operand ports; and one that is not of the map, wider than the
port, which is refused (the model's choice, log entry 7). -/
def Obligations.SpecWordsDecode : Prop :=
  decodeTableWord 8 0b0000 = some .nop
  ∧ decodeTableWord 8 0b0001 = some (.dec8 (Vector.replicate 12 0))
  ∧ decodeTableWord 8 0b0011 = some (.dec24 (Vector.replicate 34 0))
  ∧ decodeTableWord 8 0b0101 = some .calTick
  ∧ decodeTableWord 8 0b0111 = some (.trimWr 0 0 0)
  ∧ decodeTableWord 8 0b1000 = some (.acc1gWr 0)
  ∧ decodeTableWord 8 0b1001 = some .reserved1001
  ∧ decodeTableWord 8 0b1011 = some (.reserved101x 0b1011)
  ∧ decodeTableWord 8 0b1110 = some (.reserved11xx 0b1110)
  ∧ decodeTableWord 8 0b10000 = none

/-- Decode and encode agree, for every well-formed command and every operand (R72, R73, R74). -/
def Obligations.DecodeOfEncode : Prop := ∀ i : Instr, i.wf = true → decode (encode i) = i

/-- Every port value decodes to a well-formed command whose encoding has the same opcode (R71: "the whole 4-bit word
cmd_op[3:0] is the opcode"). -/
def Obligations.EncodeOfDecodeKeepsOpcode : Prop :=
  ∀ p : CmdPort, (decode p).wf = true ∧ (encode (decode p)).cmdOp = p.cmdOp

/-- R72: a command reads only the operand ports listed for it, DECn only bytes 0 to 11n/8 (20_memory.md R52); "every
other port's value is ignored by that command". -/
def Obligations.UnreadPortsIgnored : Prop :=
  ∀ p q : CmdPort, p.cmdOp = q.cmdOp →
    (p.cmdOp = 0x1 → ∀ i (h : i < 12), p.frameIn[i] = q.frameIn[i]) →
    (p.cmdOp = 0x2 → ∀ i (h : i < 23), p.frameIn[i] = q.frameIn[i]) →
    (p.cmdOp = 0x3 → p.frameIn = q.frameIn) →
    (p.cmdOp = 0x6 ∨ p.cmdOp = 0x7 → p.wdX = q.wdX ∧ p.wdY = q.wdY ∧ p.wdZ = q.wdZ) →
    (p.cmdOp = 0x8 → p.wdX = q.wdX) →
    decode p = decode q

/-! ### The step -/

/-- A cycle with `cmd_valid = 1` and no reset executes the command on the port, in the state whose next input is due
(30_encoding.md R70). -/
def Obligations.StepRunsDecodedCommand : Prop :=
  ∀ (s : State) (p : ClockCycle) (ps : List ClockCycle), s.input = p :: ps → p.rst = false → p.cmdValid = true →
    step s = exec (decode p.port) { s with input := ps }

/-- The reset values of 10_state.md R20, in `State.reset` (where the empty input is the model's choice, log entry 1) and
after every cycle with `rst = 1` (70_reset_and_hazards.md R200, 60_exceptions.md R183 item 3): whatever command the
cycle carries, it has no effect and no response, and none is driven in the next cycle. -/
def Obligations.ResetLoadsSpecValues : Prop :=
  (AtReset State.reset.regs ∧ State.reset.input = [])
  ∧ ∀ (s : State) (p : ClockCycle) (ps : List ClockCycle), s.input = p :: ps → p.rst = true →
      s.response = ⟨false, 0, false, false⟩
      ∧ ∃ t, step s = .next t ∧ AtReset t.regs ∧ t.input = ps
        ∧ ∀ b : Response, waves 2 b s = [s.outputs b, t.outputs ⟨false, 0, false, false⟩]

/-- "While no command is issued (cmd_valid = 0) every register holds its value" (60_exceptions.md R194), and the
response is all zero (30_encoding.md R70). A host with no cycle left drives idle ones (log entry 1). -/
def Obligations.IdleCycleHoldsRegisters : Prop :=
  ∀ s : State, s.pins.rst = false → s.pins.cmdValid = false →
    step s = .next ⟨s.regs, s.input.tail⟩ ∧ s.response = ⟨false, 0, false, false⟩

/-- The response (60_exceptions.md R184) of every cycle: `valid` exactly for a command without reset, `status` of a DEC
command only, `save` only for a CAL_TICK at the final cycle, `illegal` only for a reserved opcode, all zero when not
valid; and the host sees it in the next cycle and in no other. -/
def Obligations.ResponseDescribesCycleBefore : Prop :=
  ∀ s : State,
    let p := s.pins
    let issued := p.rst = false ∧ p.cmdValid = true
    (s.response.valid = true ↔ issued)
    ∧ (s.response.valid = false → s.response = ⟨false, 0, false, false⟩)
    ∧ (issued → p.port.cmdOp = 0x1 → s.response.status = StatusWord p.port.frameIn[11])
    ∧ (issued → p.port.cmdOp = 0x2 → s.response.status = StatusWord p.port.frameIn[22])
    ∧ (issued → p.port.cmdOp = 0x3 → s.response.status = StatusWord p.port.frameIn[33])
    ∧ (p.port.cmdOp ≠ 0x1 → p.port.cmdOp ≠ 0x2 → p.port.cmdOp ≠ 0x3 → s.response.status = 0)
    ∧ (s.response.save = true ↔ issued ∧ p.port.cmdOp = 0x5 ∧ s.regs.calCnt = 1)
    ∧ (s.response.illegal = true ↔ issued ∧ 9 ≤ p.port.cmdOp.toNat)
    ∧ ∃ t u, step s = .next t ∧ step t = .next u ∧ ∀ (k : Nat) (b : Response),
        waves (k + 2) b s = s.outputs b :: t.outputs s.response :: waves k t.response u

/-- RFCORE never stops (60_exceptions.md R180): "Every command, with every operand value, completes with a defined
state change"; no fault exists, and a run of any length goes on. -/
def Obligations.EveryRunIsSafe : Prop :=
  IsEmpty Fault ∧ (∀ (i : Instr) (s : State), Completes (exec i s)) ∧ (∀ s : State, Completes (step s))
    ∧ ∀ s : State, SafeRun s

/-- `step(state, cmd, ports) = (state', resp)` (R184) on the registers alone (10_state.md R32): a step, and a command,
is the transaction of RFCORE on its own, response included, keeps the later input, and does not depend on `rd_addr`,
since a read has no side effect (20_memory.md R59). -/
def Obligations.StepDependsOnRegistersAndPins : Prop :=
  (∀ s : State, step s = .next ⟨(transact chip s.regs s.pins).1, s.input.tail⟩
      ∧ s.response = (transact chip s.regs s.pins).2)
  ∧ (∀ (i : Instr) (s : State), exec i s = .next ⟨(effect chip i s.regs).1, s.input⟩
      ∧ respond i s = (effect chip i s.regs).2)
  ∧ (∀ s : State, s.pins.rst = false → s.pins.cmdValid = true →
      s.response = respond (decode s.pins.port) s)
  ∧ ∀ s s' : State, s.regs = s'.regs → s.pins.rst = s'.pins.rst → s.pins.cmdValid = s'.pins.cmdValid →
      s.pins.port = s'.pins.port →
      s.response = s'.response ∧ ∃ t t', step s = .next t ∧ step s' = .next t' ∧ t.regs = t'.regs

/-! ### The frame unpacker -/

/-- `DECODE(n)` for DEC8, DEC16, DEC24 (40_sbus_unpack.md R104): fields, digital channels, the slots kept, status, and
no calibration register changed. -/
def Obligations.DecodeWritesChannelsAndStatus : Prop :=
  (∀ f s, ∃ t, exec (.dec8 f) s = .next t ∧ DecodeEffect 8 f s t (respond (.dec8 f) s))
  ∧ (∀ f s, ∃ t, exec (.dec16 f) s = .next t ∧ DecodeEffect 16 f s t (respond (.dec16 f) s))
  ∧ (∀ f s, ∃ t, exec (.dec24 f) s = .next t ∧ DecodeEffect 24 f s t (respond (.dec24 f) s))

/-- R102: the first form bit by bit, "The two forms are equal", the table of `(b_r, s_r)` with the bytes spanned, and
"No field takes a bit of byte L or above", the last field ending at the byte before. -/
def Obligations.FieldFormsAgree : Prop :=
  (∀ (m : Nat) (f : Vector Byte m) (k : Nat),
      let b := 11 * k / 8
      let s := 11 * k % 8
      (∀ j < 11, (field f k).getLsbD j = FrameBit f (11 * k + j))
      ∧ (field f k).toNat
        = (((frameByte f b).toNat >>> s ||| (frameByte f (b + 1)).toNat <<< (8 - s)
            ||| (if 6 ≤ s then (frameByte f (b + 2)).toNat <<< (16 - s) else 0)) &&& 0x7FF))
  ∧ (∀ q r : Nat, r < 8 →
      11 * (8 * q + r) / 8 = 11 * q + [0, 1, 2, 4, 5, 6, 8, 9].getD r 0
      ∧ 11 * (8 * q + r) % 8 = [0, 3, 6, 1, 4, 7, 2, 5].getD r 0
      ∧ (11 * (8 * q + r) + 10) / 8 + 1 - 11 * (8 * q + r) / 8 = [2, 2, 3, 2, 2, 3, 2, 2].getD r 0)
  ∧ (∀ (m : Nat) (f g : Vector Byte m) (n k : Nat), n = 8 ∨ n = 16 ∨ n = 24 → k < n →
      (∀ i < 11 * n / 8, frameByte f i = frameByte g i) → field f k = field g k)
  ∧ ∀ n : Nat, n = 8 ∨ n = 16 ∨ n = 24 →
      (n - 1) % 8 = 7 ∧ 11 * (n - 1) % 8 = 5 ∧ 11 * (n - 1) + 10 = 11 * n - 1 ∧ 11 * n - 1 = 8 * (11 * n / 8) - 1

/-- R109: what sets each status bit of a DEC command, whose status is one of 0x1, 0x3, 0x9, each of them for some
frame; every other command returns 0. -/
def Obligations.StatusBitsFollowFlags : Prop :=
  (∀ (i : Instr) (n : Nat) (s : State), IsDec n i →
      let w := (respond i s).status
      w.getLsbD 0 = true
      ∧ w.getLsbD 1 = (FlagsByte i).getLsbD 3
      ∧ w.getLsbD 2 = false
      ∧ w.getLsbD 3 = (!(FlagsByte i).getLsbD 3 && (FlagsByte i).getLsbD 2)
      ∧ (w = 0x1 ∨ w = 0x3 ∨ w = 0x9))
  ∧ (∀ (n : Nat) (s : State), n = 8 ∨ n = 16 ∨ n = 24 → ∀ w : BitVec 4, w = 0x1 ∨ w = 0x3 ∨ w = 0x9 →
      ∃ i t, IsDec n i ∧ exec i s = .next t ∧ (respond i s).status = w)
  ∧ (∀ (i : Instr) (s : State), (∀ n, ¬IsDec n i) → (respond i s).status = 0)

/-- "Bits 7:4 have no effect on any result of any DEC command" (R101). -/
def Obligations.ReservedFlagBitsIgnored : Prop :=
  (∀ (f g : Vector Byte 12) (s : State), (∀ i (h : i < 11), f[i] = g[i]) →
      (f[11] &&& 0x0F) = (g[11] &&& 0x0F) → exec (.dec8 f) s = exec (.dec8 g) s
        ∧ respond (.dec8 f) s = respond (.dec8 g) s)
  ∧ (∀ (f g : Vector Byte 23) (s : State), (∀ i (h : i < 22), f[i] = g[i]) →
      (f[22] &&& 0x0F) = (g[22] &&& 0x0F) → exec (.dec16 f) s = exec (.dec16 g) s
        ∧ respond (.dec16 f) s = respond (.dec16 g) s)
  ∧ (∀ (f g : Vector Byte 34) (s : State), (∀ i (h : i < 33), f[i] = g[i]) →
      (f[33] &&& 0x0F) = (g[33] &&& 0x0F) → exec (.dec24 f) s = exec (.dec24 g) s
        ∧ respond (.dec24 f) s = respond (.dec24 g) s)

/-- R111: the written slots and the response do not depend on what CH held, decoding twice changes nothing, and a
shorter decode leaves the slots above its own as the longer one wrote them. -/
def Obligations.DecodeIsIdempotentOnWrittenSlots : Prop :=
  (∀ (n : Nat) (i : Instr) (s s' t t' : State), IsDec n i → exec i s = .next t → exec i s' = .next t' →
      (∀ k : Fin 26, k.val ≤ n + 1 → t.regs.ch[k] = t'.regs.ch[k]) ∧ respond i s = respond i s')
  ∧ (∀ (n : Nat) (i : Instr) (s t u : State), IsDec n i → exec i s = .next t → exec i t = .next u →
      u.regs = t.regs ∧ respond i t = respond i s)
  ∧ (∀ (n m : Nat) (i j : Instr) (s t u : State), IsDec n i → IsDec m j → m < n → exec i s = .next t →
      exec j t = .next u → ∀ k : Fin 26, m + 2 ≤ k.val → k.val ≤ n + 1 → u.regs.ch[k] = t.regs.ch[k])

/-- Decode and calibration share no state (60_exceptions.md R183 item 5): a DEC command and any other command give
the same registers in either order. -/
def Obligations.DecodeCommutesWithOtherUnit : Prop :=
  ∀ (n : Nat) (i j : Instr) (s t u t' u' : State), IsDec n i → (∀ m, ¬IsDec m j) →
    exec i s = .next t → exec j t = .next u → exec j s = .next t' → exec i t' = .next u' → u.regs = u'.regs

/-! ### The calibration engine -/

/-- CAL_START (41_calibration.md R130), in every calibration state: CAL_CNT takes CAL_N, nothing else is written, and
`cal_complete` becomes 0. -/
def Obligations.CalStartLoadsCount : Prop :=
  ∀ s : State,
    exec .calStart s = .next ⟨{ s.regs with calCnt := chip.calN }, s.input⟩
    ∧ respond .calStart s = ⟨true, 0, false, false⟩
    ∧ calComplete { s.regs with calCnt := chip.calN } = false

/-- CAL_TICK (R131), the whole command on every state: the idle tick (R132), accumulation (R133, R134), blanking
(R135), the commit (R136), its side effects (R137) and the count (R138), for the chip and for every instance. -/
def Obligations.CalTickEffect : Prop :=
  (∀ s : State, ∃ t, exec .calTick s = .next t ∧ TickEffect chip s.regs t.regs (respond .calTick s) ∧ t.input = s.input)
  ∧ ∀ (c : Config) (r : Regs), TickEffect c r (calTick c r).1 (calTick c r).2

/-- The rounding law (R143), for every instance: what the two modes give, and the table of R143 for `CAL_N = 400`. -/
def Obligations.RoundingLaw : Prop :=
  (∀ (c : Config) (sum : Int), -(c.half : Int) ≤ sum →
      average c sum = (sum + c.half) / c.n
      ∧ (c.n % 2 = 0 → (2 * average c sum - 1) * c.n ≤ 2 * sum ∧ 2 * sum < (2 * average c sum + 1) * c.n))
  ∧ (∀ (c : Config) (sum : Int), c.divMode = .floor → average c sum = (sum + c.half) / c.n)
  ∧ (∀ (c : Config) (sum : Int), c.divMode = .trunc → sum < -(c.half : Int) →
      ¬((c.n : Int) ∣ sum + c.half) → average c sum = (sum + c.half) / c.n + 1)
  ∧ (∀ (c : Config) (m : Int), c.n % 2 = 0 → m < 0 →
      average c (m * c.n) = match c.divMode with | .trunc => m + 1 | .floor => m)
  ∧ (∀ c : Config, c.calN = 400 →
      [200, 199, -200, -201, -40000, -601, -40100, -13107200].map (average c)
        = match c.divMode with
          | .trunc => [1, 0, 0, 0, -99, -1, -99, -32767]
          | .floor => [1, 0, 0, -1, -100, -2, -100, -32768])

/-- "no overflow is reachable" (R142): from every state that meets the invariant of the engine, a tick's sums fit, the
average fits 16 bits in both modes, so `wrap_16` changes no X or Y commit, and the Z value is at least -98303. -/
def Obligations.CalibrationNeverOverflows : Prop :=
  ∀ (c : Config) (r : Regs) (a : Axis), r.Inv c → r.calCnt ≠ 0 →
    ((calTick c r).1.calAcc.lane a).toInt = TickSum c r a
    ∧ |((calTick c r).1.calAcc.lane a).toInt| ≤ (c.n - (calTick c r).1.calCnt.toNat) * 32768
    ∧ -2147450880 ≤ TickSum c r a + c.half ∧ TickSum c r a + c.half ≤ 2147418112
    ∧ (r.calCnt = 1 →
        -32768 ≤ average c (TickSum c r a) ∧ average c (TickSum c r a) ≤ 32767
        ∧ ((calTick c r).1.trim.x).toInt = average c (TickSum c r .x)
        ∧ ((calTick c r).1.trim.y).toInt = average c (TickSum c r .y)
        ∧ -98303 ≤ average c (TickSum c r .z) - r.acc1g.toNat
        ∧ average c (TickSum c r .z) - r.acc1g.toNat ≤ 32767)

/-- `CAL_N = 1` (R139): first and final cycle in one tick, in both modes. -/
def Obligations.OneCycleRunCommitsSample : Prop :=
  ∀ (c : Config) (r : Regs), c.calN = 1 → r.calCnt = 1 →
    (calTick c r).1.trim.x = r.sample.x
    ∧ (calTick c r).1.trim.y = r.sample.y
    ∧ (calTick c r).1.trim.z = BitVec.ofInt 16 (r.sample.z.toInt - r.acc1g.toNat)
    ∧ (∀ a, ((calTick c r).1.calAcc.lane a).toInt = (r.sample.lane a).toInt)
    ∧ (calTick c r).1.calDone = true ∧ (calTick c r).1.calCnt = 0

/-- Restart (R140): after a CAL_START in any state the next tick discards the partial sum, and a TRIM that is blank
stays blank unless that tick is the final one. -/
def Obligations.RestartDiscardsPartialSum : Prop :=
  ∀ s t u : State, exec .calStart s = .next t → exec .calTick t = .next u →
    t.regs.calCnt = chip.calN
    ∧ t.regs.trim = s.regs.trim
    ∧ (∀ a, (u.regs.calAcc.lane a).toInt = (s.regs.sample.lane a).toInt)
    ∧ (chip.calN = 1 ∨ ∀ a, u.regs.trim.lane a = 0)

/-- A whole run (R134, R136, R138, R145), for every instance, from any registers and for any samples: in the middle
TRIM and SAMPLE read 0 and CAL_ACC holds the sum so far; after exactly `CAL_N` steps the rounded mean is committed. -/
def Obligations.RunCommitsRoundedMean : Prop :=
  ∀ (c : Config) (r : Regs) (vs : List (Axes 16)), vs ≠ [] → vs.length ≤ c.n →
    let r' := stepSamples c vs (calStart c r).1
    (∀ a, (r'.calAcc.lane a).toInt = laneSum a vs)
    ∧ r'.ch = r.ch ∧ r'.acc1g = r.acc1g
    ∧ (vs.length < c.n → InRun c vs.length r r')
    ∧ (vs.length = c.n →
        r'.calCnt = 0 ∧ calComplete r' = true ∧ r'.calDone = true ∧ (∀ a, r'.sample.lane a = 0)
        ∧ ∀ a, r'.trim.lane a
            = BitVec.ofInt 16 (RoundedQuotient c.divMode (laneSum a vs + ((c.calN.toNat / 2 : Nat) : Int)) c.calN.toNat
                - Offset r a))

/-- The source's worked run (R146), in both modes, from any registers with ACC_1G = 256. -/
def Obligations.SourceWorkedRun : Prop :=
  ∀ (c : Config) (r : Regs), c.calN = 400 → r.acc1g = 256 →
    (∀ k : Nat, 1 ≤ k → k ≤ 399 →
      calComplete (stepSamples c (List.replicate k ⟨100, 100, 356⟩) (calStart c r).1) = false)
    ∧ (let r' := stepSamples c (List.replicate 400 ⟨100, 100, 356⟩) (calStart c r).1
       calComplete r' = true ∧ r'.trim = ⟨100, 100, 100⟩ ∧ r'.calAcc = ⟨40000, 40000, 142400⟩)

/-- CAL_DONE (10_state.md R28): a final CAL_TICK sets it, "No command clears it; only reset changes it" back. -/
def Obligations.CalDoneOnlySetByFinalTick : Prop :=
  (∀ (i : Instr) (s t : State), exec i s = .next t →
      t.regs.calDone = (s.regs.calDone || decide (i = .calTick ∧ s.regs.calCnt = 1)))
  ∧ (∀ s t : State, step s = .next t → s.pins.rst = false → s.regs.calDone = true → t.regs.calDone = true)

/-- The writers of CAL_CNT (R23) and how a run can end (41_calibration.md R141): CAL_START loads it, a CAL_TICK above
0 counts it down by one, reset clears it, nothing else writes it; so only reset takes it from above 1 to 0. -/
def Obligations.CalCntWriters : Prop :=
  (∀ (i : Instr) (s t : State), exec i s = .next t →
      (i = .calStart → t.regs.calCnt = chip.calN)
      ∧ (i = .calTick → t.regs.calCnt.toNat = s.regs.calCnt.toNat - 1)
      ∧ (i ≠ .calStart → i ≠ .calTick → t.regs.calCnt = s.regs.calCnt))
  ∧ (∀ s t : State, step s = .next t → 2 ≤ s.regs.calCnt.toNat → t.regs.calCnt = 0 → s.pins.rst = true)

/-- "No lane reads another lane's register" (R144): a lane after a tick depends on the same lane before, on CAL_CNT,
and in lane Z alone on ACC_1G. -/
def Obligations.LanesAreIndependent : Prop :=
  ∀ (c : Config) (r r' : Regs) (a : Axis), r.calCnt = r'.calCnt → r.calAcc.lane a = r'.calAcc.lane a →
    r.sample.lane a = r'.sample.lane a → r.trim.lane a = r'.trim.lane a → (a = .z → r.acc1g = r'.acc1g) →
    (calTick c r).1.calAcc.lane a = (calTick c r').1.calAcc.lane a
    ∧ (calTick c r).1.sample.lane a = (calTick c r').1.sample.lane a
    ∧ (calTick c r).1.trim.lane a = (calTick c r').1.trim.lane a
    ∧ (calTick c r).1.calCnt = (calTick c r').1.calCnt

/-- The FSM states (10_state.md R30) of a counter in range: idle apart from the others, some state always, First and
Finalizing together exactly at the one tick of `CAL_N = 1`, Accumulating apart from both and empty for `CAL_N = 2`. -/
def Obligations.PhasesCoverTheCounter : Prop :=
  ∀ (c : Config) (r : Regs), CountBounded c r →
    (inPhase c r .idle = true ↔ r.calCnt = 0)
    ∧ (inPhase c r .first = true ↔ r.calCnt = c.calN)
    ∧ (inPhase c r .accumulating = true ↔ 2 ≤ r.calCnt.toNat ∧ r.calCnt.toNat + 1 ≤ c.calN.toNat)
    ∧ (inPhase c r .finalizing = true ↔ r.calCnt = 1)
    ∧ (inPhase c r .idle = true ∨ inPhase c r .first = true ∨ inPhase c r .accumulating = true
      ∨ inPhase c r .finalizing = true)
    ∧ (inPhase c r .idle = true → inPhase c r .first = false ∧ inPhase c r .accumulating = false
        ∧ inPhase c r .finalizing = false)
    ∧ (inPhase c r .first = true ∧ inPhase c r .finalizing = true ↔ r.calCnt = 1 ∧ c.calN = 1)
    ∧ (inPhase c r .accumulating = true → inPhase c r .first = false ∧ inPhase c r .finalizing = false)
    ∧ (c.calN = 2 → inPhase c r .accumulating = false)

/-- CAL_ACC (R24): "Only CAL_TICK writes it", "no read address returns it and no output shows it", and its reset value
is unobservable: two runs of any length from reset with any input, one with other accumulators, drive the same
outputs in every cycle, responses included. -/
def Obligations.AccumulatorIsHidden : Prop :=
  (∀ (i : Instr) (s t : State), i ≠ .calTick → exec i s = .next t → t.regs.calAcc = s.regs.calAcc)
  ∧ (∀ (c : Config) (r : Regs) (acc : Axes 32) (a : BitVec 6),
      readPort c { r with calAcc := acc } a = readPort c r a)
  ∧ (∀ (s : State) (acc : Axes 32) (b : Response),
      let s' : State := { s with regs := { s.regs with calAcc := acc } }
      s'.outputs b = s.outputs b ∧ s'.response = s.response)
  ∧ ∀ (input : List ClockCycle) (acc : Axes 32) (k : Nat) (b : Response),
      waves k b ⟨{ Regs.reset chip with calAcc := acc }, input⟩ = waves k b ⟨Regs.reset chip, input⟩

/-- A TRIM_WR during a run "is overwritten by the next CAL_TICK (with 0 before the final cycle, with the commit at
it)" (70_reset_and_hazards.md R214). -/
def Obligations.TrimWriteInRunIsOverwritten : Prop :=
  ∀ (x y z : Half) (s t u v : State), s.regs.calCnt ≠ 0 → exec (.trimWr x y z) s = .next t →
    exec .calTick t = .next u → exec .calTick s = .next v → u.regs = v.regs ∧ respond .calTick t = respond .calTick s

/-- A second tick of a run without a SAMPLE_WR between adds 0 (R213), for every instance. -/
def Obligations.TickWithoutFreshSampleAddsZero : Prop :=
  ∀ (c : Config) (r : Regs), CountBounded c r → 2 ≤ r.calCnt.toNat →
    (calTick c (calTick c r).1).1.calAcc = (calTick c r).1.calAcc

/-- ACC_1G is read at the final tick only (R216): before it, a tick does the same for any value; at it, Z alone
changes; and writing it changes no committed trim. -/
def Obligations.FullScaleReadAtFinalTick : Prop :=
  (∀ (c : Config) (r : Regs) (v : Half), r.calCnt ≠ 1 →
      (calTick c { r with acc1g := v }).1 = { (calTick c r).1 with acc1g := v })
  ∧ (∀ (c : Config) (r : Regs) (v : Half), r.calCnt = 1 →
      (calTick c { r with acc1g := v }).1.trim.x = (calTick c r).1.trim.x
      ∧ (calTick c { r with acc1g := v }).1.trim.y = (calTick c r).1.trim.y
      ∧ (calTick c { r with acc1g := v }).1.trim.z = (calTick c r).1.trim.z + r.acc1g - v)
  ∧ (∀ (v : Half) (s t : State), exec (.acc1gWr v) s = .next t → t.regs.trim = s.regs.trim)

/-! ### Host access -/

/-- NOP (42_host_access.md R160): "any state, NOP → same state", response valid and nothing else; it "differs from an
idle cycle only in resp.valid". -/
def Obligations.NopOnlyAnswers : Prop :=
  (∀ s : State, exec .nop s = .next s ∧ respond .nop s = ⟨true, 0, false, false⟩)
  ∧ (∀ s : State, s.pins.rst = false → s.pins.cmdValid = true → s.pins.port.cmdOp = 0x0 →
      step s = .next ⟨s.regs, s.input.tail⟩ ∧ s.response = ⟨true, 0, false, false⟩)
  ∧ (∀ s : State, s.pins.rst = false → s.pins.cmdValid = false →
      step s = .next ⟨s.regs, s.input.tail⟩ ∧ s.response = ⟨false, 0, false, false⟩)

/-- The reserved opcodes (R166, 30_encoding.md R75): each of the three rows with any opcode, and each opcode 0x9 to
0xF on the port, changes no register and sets `resp.illegal`. -/
def Obligations.ReservedOpcodesOnlyReport : Prop :=
  (∀ s : State, exec .reserved1001 s = .next s ∧ respond .reserved1001 s = ⟨true, 0, false, true⟩)
  ∧ (∀ (op : BitVec 4) (s : State),
      exec (.reserved101x op) s = .next s ∧ respond (.reserved101x op) s = ⟨true, 0, false, true⟩)
  ∧ (∀ (op : BitVec 4) (s : State),
      exec (.reserved11xx op) s = .next s ∧ respond (.reserved11xx op) s = ⟨true, 0, false, true⟩)
  ∧ (∀ s : State, s.pins.rst = false → s.pins.cmdValid = true → 9 ≤ s.pins.port.cmdOp.toNat →
      step s = .next ⟨s.regs, s.input.tail⟩ ∧ s.response = ⟨true, 0, false, true⟩)

/-- SAMPLE_WR (R162): the three ports unchanged into SAMPLE, read back sign-extended; nothing else is written, so
every other address reads as before. -/
def Obligations.SampleWrLoadsSample : Prop :=
  ∀ (x y z : Half) (s : State), ∃ t,
    exec (.sampleWr x y z) s = .next t
    ∧ t = ⟨{ s.regs with sample := ⟨x, y, z⟩ }, s.input⟩
    ∧ respond (.sampleWr x y z) s = ⟨true, 0, false, false⟩
    ∧ (readPort chip t.regs 0x24).toInt = x.toInt
    ∧ (readPort chip t.regs 0x25).toInt = y.toInt
    ∧ (readPort chip t.regs 0x26).toInt = z.toInt
    ∧ ∀ a : BitVec 6, a ≠ 0x24 → a ≠ 0x25 → a ≠ 0x26 → readPort chip t.regs a = readPort chip s.regs a

/-- TRIM_WR (R163): the three ports unchanged into TRIM, read back sign-extended; nothing else is written. -/
def Obligations.TrimWrLoadsTrim : Prop :=
  ∀ (x y z : Half) (s : State), ∃ t,
    exec (.trimWr x y z) s = .next t
    ∧ t = ⟨{ s.regs with trim := ⟨x, y, z⟩ }, s.input⟩
    ∧ respond (.trimWr x y z) s = ⟨true, 0, false, false⟩
    ∧ (readPort chip t.regs 0x21).toInt = x.toInt
    ∧ (readPort chip t.regs 0x22).toInt = y.toInt
    ∧ (readPort chip t.regs 0x23).toInt = z.toInt
    ∧ ∀ a : BitVec 6, a ≠ 0x21 → a ≠ 0x22 → a ≠ 0x23 → readPort chip t.regs a = readPort chip s.regs a

/-- ACC1G_WR (R164): `wd_x` into ACC_1G, any value, read back zero-extended; nothing else is written. -/
def Obligations.Acc1gWrLoadsFullScale : Prop :=
  ∀ (v : Half) (s : State), ∃ t,
    exec (.acc1gWr v) s = .next t
    ∧ t = ⟨{ s.regs with acc1g := v }, s.input⟩
    ∧ respond (.acc1gWr v) s = ⟨true, 0, false, false⟩
    ∧ (readPort chip t.regs 0x27).toNat = v.toNat
    ∧ ∀ a : BitVec 6, a ≠ 0x27 → readPort chip t.regs a = readPort chip s.regs a

/-- R161: "Every command of this file leaves CH, CAL_CNT, CAL_ACC and CAL_DONE unchanged, and returns resp.status = 0
and resp.save = 0". -/
def Obligations.HostAccessFrame : Prop :=
  ∀ (i : Instr) (s : State), IsHostAccess i → ∃ t, exec i s = .next t
    ∧ t.regs.ch = s.regs.ch ∧ t.regs.calCnt = s.regs.calCnt ∧ t.regs.calAcc = s.regs.calAcc
    ∧ t.regs.calDone = s.regs.calDone ∧ (respond i s).status = 0 ∧ (respond i s).save = false

/-! ### The read port and the outputs -/

/-- The register read map (20_memory.md R55), address by address, for every instance; and a read, of a reserved address
or another, has no effect (R56): what a step makes does not depend on `rd_addr`. -/
def Obligations.ReadMap : Prop :=
  (∀ (s : State) (p : ClockCycle) (ps : List ClockCycle) (a b : BitVec 6),
    let sa : State := { s with input := { p with rdAddr := a } :: ps }
    let sb : State := { s with input := { p with rdAddr := b } :: ps }
    step sa = step sb ∧ sa.response = sb.response)
  ∧ ∀ (c : Config) (r : Regs),
    (∀ k : Fin 26, (readPort c r (BitVec.ofNat 6 k.val)).toNat = r.ch[k].toNat)
    ∧ (readPort c r 0x20).toNat = r.calCnt.toNat
    ∧ (readPort c r 0x21).toInt = r.trim.x.toInt
    ∧ (readPort c r 0x22).toInt = r.trim.y.toInt
    ∧ (readPort c r 0x23).toInt = r.trim.z.toInt
    ∧ (readPort c r 0x24).toInt = r.sample.x.toInt
    ∧ (readPort c r 0x25).toInt = r.sample.y.toInt
    ∧ (readPort c r 0x26).toInt = r.sample.z.toInt
    ∧ (readPort c r 0x27).toNat = r.acc1g.toNat
    ∧ ((readPort c r 0x28).getLsbD 0 = true ↔ r.calCnt = 0)
    ∧ (readPort c r 0x28).getLsbD 1 = r.calDone
    ∧ (∀ j, 2 ≤ j → (readPort c r 0x28).getLsbD j = false)
    ∧ (readPort c r 0x29).toNat = c.n
    ∧ (∀ a : BitVec 6, 0x1A ≤ a.toNat ∧ a.toNat ≤ 0x1F ∨ 0x2A ≤ a.toNat → readPort c r a = 0)

/-- The outputs of a cycle (R54, 60_exceptions.md R185): `rd_data` from the state before this cycle's command, the
level outputs from the registers, `cal_complete` exactly when CAL_CNT = 0 (R29); after a step, the state it left, and
`resp.*` its response (70_reset_and_hazards.md R212). -/
def Obligations.OutputsFollowRegisters : Prop :=
  ∀ (s t : State) (b : Response), step s = .next t →
    waves 2 b s = [s.outputs b, t.outputs s.response]
    ∧ (s.outputs b).resp = b ∧ (t.outputs s.response).resp = s.response
    ∧ (s.outputs b).rdData = readPort chip s.regs s.pins.rdAddr
    ∧ (t.outputs s.response).rdData = readPort chip t.regs t.pins.rdAddr
    ∧ ((t.outputs s.response).calComplete = true ↔ t.regs.calCnt = 0)
    ∧ (t.outputs s.response).calDone = t.regs.calDone
    ∧ (State.reset.outputs b).calComplete = true

/-! ### The configuration -/

/-- "A model instance with CAL_N = 0 is not admitted" (00_scope.md R7); every other is, with its own parameters. -/
def Obligations.ConfigWithoutCyclesRefused : Prop :=
  (∀ p : Params, Config.accept p = none ↔ p.calN = 0)
  ∧ (∀ (p : Params) (c : Config), Config.accept p = some c → c.toParams = p)
  ∧ ∀ c : Config, 1 ≤ c.n ∧ c.n ≤ 65535

/-! ### Invariants of every step -/

/-- The invariants hold after reset. -/
def Obligations.InvariantsHoldAtReset : Prop :=
  State.reset.regs.Inv chip ∧ ChannelsLegal chip State.reset.regs

/-- The counter stays within CAL_N (R23) and the accumulators within the sums of their ticks (R142), step by step,
from every state that meets the invariant. -/
def Obligations.StepKeepsCalibrationInvariant : Prop :=
  ∀ s t : State, s.regs.Inv chip → step s = .next t → t.regs.Inv chip

/-- Every slot of CH keeps an 11-bit value or the reset fill (R22, R110). -/
def Obligations.StepKeepsChannelsLegal : Prop :=
  ∀ s t : State, ChannelsLegal chip s.regs → step s = .next t → ChannelsLegal chip t.regs

/-! ### The assembler -/

/-- "An assembler refuses an operand outside its range and refuses a DEC line with more bytes than its variant reads"
(30_encoding.md R76), and accepts every other line of these commands. -/
def Obligations.AssemblerRefusesOutOfRange : Prop :=
  ∀ (c : Config) (x y z v : Int) (bs : List Nat),
    ((assemble c [.sampleWr x y z]).isSome = true
        ↔ ∀ i ∈ [x, y, z], -32768 ≤ i ∧ i ≤ 32767)
    ∧ ((assemble c [.trimWr x y z]).isSome = true ↔ ∀ i ∈ [x, y, z], -32768 ≤ i ∧ i ≤ 32767)
    ∧ ((assemble c [.acc1gWr v]).isSome = true ↔ 0 ≤ v ∧ v ≤ 65535)
    ∧ ((assemble c [.dec8 bs]).isSome = true ↔ bs.length ≤ 12 ∧ ∀ b ∈ bs, b < 256)
    ∧ ((assemble c [.dec16 bs]).isSome = true ↔ bs.length ≤ 23 ∧ ∀ b ∈ bs, b < 256)
    ∧ ((assemble c [.dec24 bs]).isSome = true ↔ bs.length ≤ 34 ∧ ∀ b ∈ bs, b < 256)

/-- Which command each line stands for, signed and unsigned operands as their value, omitted frame bytes as 0x00 (R76);
and the cycle of a command line issues exactly that command. -/
def Obligations.AssembledLineIssuesItsCommand : Prop :=
  (∀ (l : AsmLine) (i : Instr), lineCommand l = some i →
      (lineCycle l).rst = false ∧ (lineCycle l).cmdValid = true ∧ decode (lineCycle l).port = i)
  ∧ lineCommand .nop = some .nop ∧ lineCommand .calStart = some .calStart ∧ lineCommand .calTick = some .calTick
  ∧ (∀ x y z : Int, (AsmLine.sampleWr x y z).wf = true →
      ∃ a b d : Half, lineCommand (.sampleWr x y z) = some (.sampleWr a b d)
        ∧ a.toInt = x ∧ b.toInt = y ∧ d.toInt = z)
  ∧ (∀ x y z : Int, (AsmLine.trimWr x y z).wf = true →
      ∃ a b d : Half, lineCommand (.trimWr x y z) = some (.trimWr a b d)
        ∧ a.toInt = x ∧ b.toInt = y ∧ d.toInt = z)
  ∧ (∀ v : Int, (AsmLine.acc1gWr v).wf = true →
      ∃ a : Half, lineCommand (.acc1gWr v) = some (.acc1gWr a) ∧ (a.toNat : Int) = v)
  ∧ (∀ bs : List Nat, (AsmLine.dec8 bs).wf = true →
      ∃ f, lineCommand (.dec8 bs) = some (.dec8 f) ∧ ∀ i (h : i < 12), f[i].toNat = bs.getD i 0)
  ∧ (∀ bs : List Nat, (AsmLine.dec16 bs).wf = true →
      ∃ f, lineCommand (.dec16 bs) = some (.dec16 f) ∧ ∀ i (h : i < 23), f[i].toNat = bs.getD i 0)
  ∧ (∀ bs : List Nat, (AsmLine.dec24 bs).wf = true →
      ∃ f, lineCommand (.dec24 bs) = some (.dec24 f) ∧ ∀ i (h : i < 34), f[i].toNat = bs.getD i 0)
  ∧ (lineCycle .idle).rst = false ∧ (lineCycle .idle).cmdValid = false

/-- The pseudo-commands (R77), in any place of any program: their cycles are the cycles of their expansions, and CAL_RUN
is CAL_START and `CAL_N` steps. -/
def Obligations.PseudoCommandsExpand : Prop :=
  ∀ (c : Config) (x y z : Int) (pre rest : List AsmLine),
    assemble c (pre ++ .trimClr :: rest) = assemble c (pre ++ .trimWr 0 0 0 :: rest)
    ∧ assemble c (pre ++ .calStep x y z :: rest) = assemble c (pre ++ .sampleWr x y z :: .calTick :: rest)
    ∧ assemble c (pre ++ .calRun x y z :: rest)
        = assemble c (pre ++ .calStart :: (List.replicate c.n (AsmLine.calStep x y z) ++ rest))
end

