-- ==== Sys2Proof/Laws/Operands.lean ====
section
/-!
SUPPORT. What the operand functions compute: the bit string of a frame bit by bit, a field bit by bit, `DIV`.
-/

namespace Sys2Proof.Machine

/-- Bit `j` of a little-endian byte string is bit `j mod 8` of byte `j div 8` (20_memory.md R53). -/
theorem testBit_foldr_bytes (bs : List Byte) (j : Nat) :
    (bs.foldr (fun (b : Byte) (w : Nat) => b.toNat + 256 * w) 0).testBit j = (bs.getD (j / 8) 0).getLsbD (j % 8) := by
  induction bs generalizing j with
  | nil => simp
  | cons b bs ih =>
    simp only [List.foldr_cons]
    have hb : b.toNat < 2 ^ 8 := b.isLt
    rw [Nat.add_comm, show (256 : Nat) = 2 ^ 8 from rfl, Nat.testBit_two_pow_mul_add _ hb]
    by_cases hj : j < 8
    · simp [hj, Nat.div_eq_of_lt hj, Nat.mod_eq_of_lt hj, BitVec.getLsbD]
    · obtain ⟨k, rfl⟩ : ∃ k, j = k + 8 := ⟨j - 8, by omega⟩
      simpa [hj] using ih k

/-- R53 for a frame. -/
theorem testBit_frameBits {m : Nat} (f : Vector Byte m) (j : Nat) :
    (frameBits f).testBit j = (frameByte f (j / 8)).getLsbD (j % 8) :=
  testBit_foldr_bytes _ _

/-- Bit `j` of `field(k)` is bit `11*k + j` of the frame (40_sbus_unpack.md R102). -/
theorem getLsbD_field {m : Nat} (f : Vector Byte m) (k j : Nat) :
    (field f k).getLsbD j
      = (decide (j < 11) && (frameByte f ((11 * k + j) / 8)).getLsbD ((11 * k + j) % 8)) := by
  simp [field, BitVec.getLsbD_ofNat, Nat.testBit_shiftRight, testBit_frameBits]

/-- A byte of the frame inside its length. -/
theorem frameByte_of_lt {m : Nat} (f : Vector Byte m) {i : Nat} (h : i < m) : frameByte f i = f[i] := by
  simp [frameByte, List.getD, h]

/-- DIV in mode FLOOR is Lean's `/` (00_scope.md R9: `b > 0`). -/
theorem div_floor {a b : Int} (hb : 0 < b) : div .floor a b = a / b :=
  Int.fdiv_eq_ediv_of_nonneg a hb.le

/-- DIV in mode TRUNC of a non-negative dividend: the two modes agree (R9). -/
theorem div_trunc_of_nonneg {a b : Int} (ha : 0 ≤ a) : div .trunc a b = a / b :=
  Int.tdiv_eq_ediv_of_nonneg ha

/-- DIV in mode TRUNC of a negative dividend: minus the quotient of its absolute value. -/
theorem div_trunc_of_neg {a b : Int} (ha : a < 0) : div .trunc a b = -(-a / b) := by
  rw [show a = -(-a) by omega, div, Int.neg_tdiv, Int.tdiv_eq_ediv_of_nonneg (by omega), Int.neg_neg]

end Sys2Proof.Machine
end

