-- ==== Sys2Proof/Laws/State.lean ====
section
/-!
SUPPORT. The fields of the state after each of its updates.
-/

namespace Sys2Proof.Machine

variable (s t : State) (r : Regs) (c : Config) (o : Regs × Response)

@[simp] theorem State.nextCycle_regs : s.nextCycle.regs = s.regs := rfl
@[simp] theorem State.nextCycle_input : s.nextCycle.input = s.input.tail := rfl

/-- All that an edge can do: the registers are the ones given, the host's input is kept. -/
theorem State.commit_eq_next : s.commit o = .next t ↔ t.regs = o.1 ∧ t.input = s.input := by
  cases t
  simp only [State.commit, Host.Outcome.next.injEq, State.mk.injEq]
  exact ⟨fun ⟨a, b⟩ => ⟨a.symm, b.symm⟩, fun ⟨a, b⟩ => ⟨a.symm, b.symm⟩⟩

theorem State.commit_completes : ∃ t, s.commit o = .next t := ⟨_, rfl⟩

@[simp] theorem State.pins_cons (p : ClockCycle) (ps : List ClockCycle) : (State.mk r (p :: ps)).pins = p := rfl
@[simp] theorem State.pins_nil : (State.mk r []).pins = ClockCycle.idle := rfl

@[simp] theorem Response.ok_valid : Response.ok.valid = true := rfl
@[simp] theorem Response.ok_status : Response.ok.status = 0 := rfl
@[simp] theorem Response.ok_save : Response.ok.save = false := rfl
@[simp] theorem Response.ok_illegal : Response.ok.illegal = false := rfl
@[simp] theorem Response.none_valid : Response.none.valid = false := rfl
@[simp] theorem Response.none_status : Response.none.status = 0 := rfl
@[simp] theorem Response.none_save : Response.none.save = false := rfl
@[simp] theorem Response.none_illegal : Response.none.illegal = false := rfl

@[simp] theorem Regs.reset_ch (k : Nat) (h : k < 26) : (Regs.reset c).ch[k] = c.resetFill := by
  simp [Regs.reset]

@[simp] theorem Regs.reset_calCnt : (Regs.reset c).calCnt = 0 := rfl
@[simp] theorem Regs.reset_calAcc : (Regs.reset c).calAcc = Axes.zero := rfl
@[simp] theorem Regs.reset_sample : (Regs.reset c).sample = Axes.zero := rfl
@[simp] theorem Regs.reset_trim : (Regs.reset c).trim = c.trimInit := rfl
@[simp] theorem Regs.reset_acc1g : (Regs.reset c).acc1g = 256 := rfl
@[simp] theorem Regs.reset_calDone : (Regs.reset c).calDone = c.calDoneInit := rfl

@[simp] theorem State.reset_regs : State.reset.regs = Regs.reset chip := rfl
@[simp] theorem State.reset_input : State.reset.input = [] := rfl

end Sys2Proof.Machine
end

