-- ==== Sys2Proof/Laws/Exec.lean ====
section
/-!
SUPPORT. Everything a command can do, said once: `exec` is an edge that writes `effect chip i`, a function of the
registers alone. Claims about commands are proved from these lemmas without unfolding a meaning.
-/

namespace Sys2Proof.Machine

section
variable (c : Config) (r : Regs)

theorem effect_nop : effect c .nop r = (r, Response.ok) := rfl
theorem effect_dec8 (f : Vector Byte 12) : effect c (.dec8 f) r = decodeFrame 8 f r := rfl
theorem effect_dec16 (f : Vector Byte 23) : effect c (.dec16 f) r = decodeFrame 16 f r := rfl
theorem effect_dec24 (f : Vector Byte 34) : effect c (.dec24 f) r = decodeFrame 24 f r := rfl
theorem effect_calStart : effect c .calStart r = calStart c r := rfl
theorem effect_calTick : effect c .calTick r = calTick c r := rfl
theorem effect_sampleWr (x y z : Half) :
    effect c (.sampleWr x y z) r = ({ r with sample := ⟨x, y, z⟩ }, Response.ok) := rfl
theorem effect_trimWr (x y z : Half) :
    effect c (.trimWr x y z) r = ({ r with trim := ⟨x, y, z⟩ }, Response.ok) := rfl
theorem effect_acc1gWr (v : Half) : effect c (.acc1gWr v) r = ({ r with acc1g := v }, Response.ok) := rfl
theorem effect_reserved1001 : effect c .reserved1001 r = reservedOp r := rfl
theorem effect_reserved101x (op : BitVec 4) : effect c (.reserved101x op) r = reservedOp r := rfl
theorem effect_reserved11xx (op : BitVec 4) : effect c (.reserved11xx op) r = reservedOp r := rfl
end

theorem exec_eq_commit (i : Instr) (s : State) : exec i s = s.commit (effect chip i s.regs) := by
  cases i <;> rfl

/-- The inversion of `exec`. -/
theorem exec_eq_next {i : Instr} {s t : State} :
    exec i s = .next t ↔ t.regs = (effect chip i s.regs).1 ∧ t.input = s.input := by
  rw [exec_eq_commit, State.commit_eq_next]

theorem exec_completes (i : Instr) (s : State) : ∃ t, exec i s = .next t := by
  rw [exec_eq_commit]
  exact State.commit_completes _ _

/-! ### The decode operation -/

section
variable {m : Nat} (n : Nat) (f : Vector Byte m) (r : Regs) (ch : Vector Half 26) (k : Fin 26)

theorem channelsAfter_field (h : k.val < n) : (channelsAfter n f ch)[k] = zext16 (field f k.val) := by
  simp [channelsAfter, h]

theorem channelsAfter_digA (h : k.val = n) :
    (channelsAfter n f ch)[k] = sentinel (digA (frameByte f (flagsAt n))) := by
  simp [channelsAfter, h]

theorem channelsAfter_digB (h : k.val = n + 1) :
    (channelsAfter n f ch)[k] = sentinel (digB (frameByte f (flagsAt n))) := by
  simp [channelsAfter, h]

theorem channelsAfter_kept (h : n + 1 < k.val) : (channelsAfter n f ch)[k] = ch[k] := by
  have h1 : ¬k.val < n := by omega
  have h2 : k.val ≠ n := by omega
  have h3 : k.val ≠ n + 1 := by omega
  simp [channelsAfter, h1, h2, h3]

/-- A decode writes CH and nothing else (R104). -/
theorem decodeFrame_regs : (decodeFrame n f r).1 = { r with ch := channelsAfter n f r.ch } := by
  unfold decodeFrame
  rfl

@[simp] theorem decodeFrame_ch : (decodeFrame n f r).1.ch = channelsAfter n f r.ch := rfl
@[simp] theorem decodeFrame_calCnt : (decodeFrame n f r).1.calCnt = r.calCnt := by
  simp only [decodeFrame]
@[simp] theorem decodeFrame_calAcc : (decodeFrame n f r).1.calAcc = r.calAcc := by
  simp only [decodeFrame]
@[simp] theorem decodeFrame_sample : (decodeFrame n f r).1.sample = r.sample := by
  simp only [decodeFrame]
@[simp] theorem decodeFrame_trim : (decodeFrame n f r).1.trim = r.trim := by
  simp only [decodeFrame]
@[simp] theorem decodeFrame_acc1g : (decodeFrame n f r).1.acc1g = r.acc1g := by
  simp only [decodeFrame]
@[simp] theorem decodeFrame_calDone : (decodeFrame n f r).1.calDone = r.calDone := by
  simp only [decodeFrame]
@[simp] theorem decodeFrame_resp :
    (decodeFrame n f r).2 = { Response.ok with status := statusOf (frameByte f (flagsAt n)) } := rfl
end

/-! ### The calibration engine -/

section
variable (c : Config) (r : Regs)

@[simp] theorem calStart_calCnt : (calStart c r).1.calCnt = c.calN := rfl
@[simp] theorem calStart_ch : (calStart c r).1.ch = r.ch := rfl
@[simp] theorem calStart_calAcc : (calStart c r).1.calAcc = r.calAcc := rfl
@[simp] theorem calStart_sample : (calStart c r).1.sample = r.sample := rfl
@[simp] theorem calStart_trim : (calStart c r).1.trim = r.trim := rfl
@[simp] theorem calStart_acc1g : (calStart c r).1.acc1g = r.acc1g := rfl
@[simp] theorem calStart_calDone : (calStart c r).1.calDone = r.calDone := rfl
@[simp] theorem calStart_resp : (calStart c r).2 = Response.ok := rfl

/-- A tick while idle (41_calibration.md R132). -/
theorem calTick_idle (h : r.calCnt = 0) : calTick c r = (r, Response.ok) := by
  simp [calTick, inPhase, h]

/-- A tick while a run is in progress (R131). -/
theorem calTick_active (h : r.calCnt ≠ 0) : calTick c r = activeTick c r := by
  rw [calTick, if_neg (by simpa [inPhase] using h)]

@[simp] theorem activeTick_ch : (activeTick c r).1.ch = r.ch := rfl
@[simp] theorem activeTick_calCnt : (activeTick c r).1.calCnt = r.calCnt - 1 := rfl
@[simp] theorem activeTick_sample : (activeTick c r).1.sample = Axes.zero := rfl
@[simp] theorem activeTick_acc1g : (activeTick c r).1.acc1g = r.acc1g := rfl
@[simp] theorem activeTick_calAcc (a : Axis) :
    (activeTick c r).1.calAcc.lane a = accumulatorOf (tickSum c r a) := by
  simp [activeTick]

theorem activeTick_final (h : r.calCnt = 1) :
    (activeTick c r).1.trim = commitTrim c r ∧ (activeTick c r).1.calDone = true
      ∧ (activeTick c r).2 = { Response.ok with save := true } := by
  simp [activeTick, inPhase, h]

theorem activeTick_not_final (h : r.calCnt ≠ 1) :
    (activeTick c r).1.trim = Axes.zero ∧ (activeTick c r).1.calDone = r.calDone
      ∧ (activeTick c r).2 = Response.ok := by
  have h1 : inPhase c r .finalizing = false := by simpa [inPhase] using h
  simp [activeTick, h1, Response.ok]

/-- A sum that fits `s32` is stored as it is (R134, R142). -/
theorem toInt_accumulatorOf {sum : Int} (h : -2147483648 ≤ sum ∧ sum < 2147483648) :
    (accumulatorOf sum).toInt = sum := by
  rw [accumulatorOf, if_pos h, BitVec.toInt_ofInt, Int.bmod_eq_of_le] <;> omega

end

end Sys2Proof.Machine
end

