-- ==== Sys2Proof/Laws/PerInstr.lean ====
section
/-!
SUPPORT. Statements made for every command, one lemma per constructor.
-/

/-- The command's opcode lies in its own row of the opcode table (30_encoding.md R73) and in no other. -/
def Sys2Proof.Laws.OpcodeRow.Statement (i : Sys2Proof.Instr) : Prop :=
  i.wf = true → ∀ k : Fin 12,
    ((Sys2Proof.opcodeTable[k.val]?).any (fun row => row.covers (Sys2Proof.encode i).cmdOp) = true ↔ k.val = i.row)

namespace Sys2Proof.Laws.OpcodeRow

/-- The only two rows with an opcode left free: checked over the sixteen opcodes. -/
theorem of_reserved101x : ∀ op : BitVec 4, (Instr.reserved101x op).wf = true → ∀ k : Fin 12,
    ((opcodeTable[k.val]?).any (fun row => row.covers op) = true ↔ k.val = 10) := by decide

theorem of_reserved11xx : ∀ op : BitVec 4, (Instr.reserved11xx op).wf = true → ∀ k : Fin 12,
    ((opcodeTable[k.val]?).any (fun row => row.covers op) = true ↔ k.val = 11) := by decide

theorem of_fixed : ∀ op : BitVec 4, op.toNat < 10 → ∀ k : Fin 12,
    ((opcodeTable[k.val]?).any (fun row => row.covers op) = true ↔ k.val = op.toNat) := by decide

theorem nop : Statement .nop := fun _ => of_fixed 0x0#4 (by decide)
theorem dec8 (f : Vector Byte 12) : Statement (.dec8 f) := fun _ => of_fixed 0x1#4 (by decide)
theorem dec16 (f : Vector Byte 23) : Statement (.dec16 f) := fun _ => of_fixed 0x2#4 (by decide)
theorem dec24 (f : Vector Byte 34) : Statement (.dec24 f) := fun _ => of_fixed 0x3#4 (by decide)
theorem calStart : Statement .calStart := fun _ => of_fixed 0x4#4 (by decide)
theorem calTick : Statement .calTick := fun _ => of_fixed 0x5#4 (by decide)
theorem sampleWr (x y z : Half) : Statement (.sampleWr x y z) := fun _ => of_fixed 0x6#4 (by decide)
theorem trimWr (x y z : Half) : Statement (.trimWr x y z) := fun _ => of_fixed 0x7#4 (by decide)
theorem acc1gWr (v : Half) : Statement (.acc1gWr v) := fun _ => of_fixed 0x8#4 (by decide)
theorem reserved1001 : Statement .reserved1001 := fun _ => of_fixed 0x9#4 (by decide)
theorem reserved101x (op : BitVec 4) : Statement (.reserved101x op) := of_reserved101x op
theorem reserved11xx (op : BitVec 4) : Statement (.reserved11xx op) := of_reserved11xx op

end Sys2Proof.Laws.OpcodeRow
end

