-- ==== Sys2Proof/Laws/Step.lean ====
section
/-!
SUPPORT. Everything a step can do, said once: it is an edge that writes what the transaction of its pins answers, and a
transaction has three cases.
-/

namespace Sys2Proof.Machine

section
variable (c : Config) (r : Regs) (p : ClockCycle)

theorem transact_reset (h : p.rst = true) : transact c r p = (Regs.reset c, Response.none) := if_pos h

theorem transact_issue (h : p.rst = false) (hv : p.cmdValid = true) :
    transact c r p = effect c (decode p.port) r := by
  simp [transact, h, hv]

theorem transact_idle (h : p.rst = false) (hv : p.cmdValid = false) : transact c r p = (r, Response.none) := by
  simp [transact, h, hv]

/-- No cycle reads `rd_addr` (20_memory.md R59). -/
@[simp] theorem transact_rdAddr (a : BitVec 6) : transact c r { p with rdAddr := a } = transact c r p := rfl

end

theorem step_eq_commit (s : State) : step s = s.nextCycle.commit (transact chip s.regs s.pins) := by
  unfold step transact
  split
  · rfl
  · split
    · rw [exec_eq_commit]
      rfl
    · rfl

/-- The inversion of `step`. -/
theorem step_eq_next {s t : State} :
    step s = .next t ↔ t.regs = (transact chip s.regs s.pins).1 ∧ t.input = s.input.tail := by
  rw [step_eq_commit, State.commit_eq_next]
  rfl

@[simp] theorem waves_zero (b : Response) (s : State) : waves 0 b s = [] := rfl

/-- The outputs of one cycle, then those of the cycles after it, the first of which carries this cycle's response. -/
theorem waves_succ (k : Nat) (b : Response) (s : State) :
    waves (k + 1) b s = s.outputs b :: waves k s.response ⟨(transact chip s.regs s.pins).1, s.input.tail⟩ := by
  rw [waves, step_eq_commit]
  rfl

theorem step_completes (s : State) : ∃ t, step s = .next t := by
  rw [step_eq_commit]
  exact State.commit_completes _ _

/-- A property of the registers that reset has and every command keeps is kept by every step. -/
theorem step_keeps {P : Regs → Prop} (hreset : P (Regs.reset chip))
    (hcmd : ∀ i r, P r → P (effect chip i r).1) {s t : State} (h : step s = .next t) (hs : P s.regs) : P t.regs := by
  rw [(step_eq_next.1 h).1]
  unfold transact
  split
  · exact hreset
  · split
    · exact hcmd _ _ hs
    · exact hs

end Sys2Proof.Machine
end

