-- ==== Sys2Proof/Tests/Slice0.lean ====
section
/-!
SUPPORT. Tests: expected values are copied from spec/95_test_vectors.md or written out from the rule named in each
comment. After them, for each obligation with hypotheses, a witness that meets them.
-/

namespace Sys2Proof.Tests

open Sys2Proof Machine

/-! ### Helpers -/

/-- An instance with the parameters that 95_test_vectors.md assumes, but for `CAL_N` and `CAL_DIV_MODE`. -/
def instanceOf (n : Half) (m : DivMode) (h : n ≠ 0 := by decide) : Config :=
  ⟨⟨n, m, 0x5555, ⟨7, 8, 9⟩, false⟩, h⟩

/-- The instance of 95_test_vectors.md. -/
def c400 : Config := instanceOf 400 .trunc

/-- Its registers after reset. -/
def r0 : Regs := Regs.reset c400

/-- The registers inside a run: counter, accumulators, sample; ACC_1G and the rest as after reset. -/
def running (cnt : Half) (acc : Axes 32) (sample : Axes 16) : Regs :=
  { r0 with calCnt := cnt, calAcc := acc, sample := sample }

/-- A state with given registers, from which the host is idle. -/
def stateOf (r : Regs) : State := ⟨r, []⟩

/-- A state with given registers and one cycle to come. -/
def cycleOf (r : Regs) (p : ClockCycle) : State := ⟨r, [p]⟩

/-- The cycle that issues an opcode with zero operand ports. -/
def opCycle (op : BitVec 4) : ClockCycle := ClockCycle.issue (CmdPort.ofOp op)

/-- The state after a step that completes. -/
def after (o : Result) : State :=
  match o with
  | .next t => t
  | .fault _ => stateOf r0
  | .refused _ => stateOf r0

/-- The channels of a state, as numbers. -/
def channels (s : State) : List Nat := s.regs.ch.toList.map BitVec.toNat

/-! ### Well-formedness: each check refuses an ill-formed term -/

theorem test_wf_refuses_opcode_of_another_row :
    (Instr.reserved101x 0x9).wf = false ∧ (Instr.reserved101x 0xC).wf = false
      ∧ (Instr.reserved11xx 0xB).wf = false ∧ (Instr.reserved11xx 0x0).wf = false := by decide

theorem test_accept_refuses_zero_cycles :
    (Config.accept { resetFill := 0, trimInit := Axes.zero, calDoneInit := false, calN := 0 }).isNone = true
      ∧ (Config.accept { resetFill := 0, trimInit := Axes.zero, calDoneInit := false }).isSome = true := by decide

theorem test_line_refuses_operands :
    (AsmLine.sampleWr 32768 0 0).wf = false ∧ (AsmLine.sampleWr 0 0 (-32769)).wf = false
      ∧ (AsmLine.trimWr 0 (-32769) 0).wf = false ∧ (AsmLine.acc1gWr 65536).wf = false
      ∧ (AsmLine.acc1gWr (-1)).wf = false ∧ (AsmLine.calStep 32768 0 0).wf = false
      ∧ (AsmLine.calRun 0 32768 0).wf = false ∧ (AsmLine.read 64).wf = false := by decide

theorem test_line_refuses_frames :
    (AsmLine.dec8 (List.replicate 13 0)).wf = false ∧ (AsmLine.dec16 (List.replicate 24 0)).wf = false
      ∧ (AsmLine.dec24 (List.replicate 35 0)).wf = false ∧ (AsmLine.dec8 [256]).wf = false := by decide

/-! ### Decoding: each constructor from its word of 30_encoding.md R73 -/

theorem test_decode_plain_words :
    decodeTableWord 4 0b0000 = some .nop ∧ decodeTableWord 4 0b0100 = some .calStart
      ∧ decodeTableWord 4 0b0101 = some .calTick ∧ decodeTableWord 4 0b1001 = some .reserved1001 := by decide

theorem test_decode_reserved_words :
    decodeTableWord 4 0b1010 = some (.reserved101x 0b1010) ∧ decodeTableWord 4 0b1011 = some (.reserved101x 0b1011)
      ∧ decodeTableWord 4 0b1100 = some (.reserved11xx 0b1100) ∧ decodeTableWord 4 0b1101 = some (.reserved11xx 0b1101)
      ∧ decodeTableWord 4 0b1110 = some (.reserved11xx 0b1110)
      ∧ decodeTableWord 4 0b1111 = some (.reserved11xx 0b1111) := by decide

/-- The write commands take `wd_x`, `wd_y`, `wd_z` in that order (R72). -/
theorem test_decode_write_ports :
    let p : CmdPort := { CmdPort.ofOp 0b0110 with wdX := 1, wdY := 2, wdZ := 3 }
    decode p = .sampleWr 1 2 3 ∧ decode { p with cmdOp := 0b0111 } = .trimWr 1 2 3
      ∧ decode { p with cmdOp := 0b1000 } = .acc1gWr 1 := by decide

/-- The decode commands take the frame's bytes from byte 0 up (R72, 20_memory.md R52). -/
theorem test_decode_frames :
    let p : CmdPort := { CmdPort.ofOp 0b0001 with frameIn := Vector.ofFn fun i : Fin 34 => BitVec.ofNat 8 i.val }
    decode p = .dec8 (lineFrame 12 (List.range 34))
      ∧ decode { p with cmdOp := 0b0010 } = .dec16 (lineFrame 23 (List.range 34))
      ∧ decode { p with cmdOp := 0b0011 } = .dec24 (lineFrame 34 (List.range 34)) := by decide

theorem test_table_word_too_wide : decodeTableWord 8 0x10 = none ∧ decodeTableWord 8 0xFF = none := by decide

/-! ### The unpacker (95_test_vectors.md section 2.1) -/

/-- V13. -/
theorem test_dec8_powers_of_two :
    let i := .dec8 (lineFrame 12 [0x01, 0x10, 0x00, 0x01, 0x10, 0x00, 0x01, 0x10, 0x00, 0x01, 0x10, 0x0A])
    channels (after (exec i (stateOf r0))) = [1, 2, 4, 8, 16, 32, 64, 128, 173, 1812] ++ List.replicate 16 0x5555
      ∧ respond i (stateOf r0) = ⟨true, 0x3, false, false⟩ := by decide

/-- V9: alternating bits across the fields of three bytes. -/
theorem test_dec8_alternating_bits :
    (channels (after (exec (.dec8 (lineFrame 12 [0, 0, 0x40, 0x55, 0x01, 0, 0, 0x55, 0x01])) (stateOf r0)))).take 10
      = [0, 0, 1365, 0, 0, 682, 0, 0, 173, 173] := by decide

/-- V11. -/
theorem test_dec16_hundreds :
    let i := .dec16 (lineFrame 23 [0xAD, 0x88, 0x48, 0x5D, 0xB2, 0xD3, 0xA3, 0x50, 0x15, 0x2C, 0x6D, 0xCD,
      0x8B, 0x61, 0x25, 0xF3, 0xD9, 0xD5, 0xE0, 0x96, 0x38, 0xD1, 0x01])
    channels (after (exec i (stateOf r0))) = (List.range 16).map (fun k => 173 + 100 * k) ++ [1812, 173] ++ List.replicate 8 0x5555
      ∧ respond i (stateOf r0) = ⟨true, 0x1, false, false⟩ := by decide

/-- V16 and V21: failsafe wins over signal loss. -/
theorem test_dec16_flag_priority :
    (respond (.dec16 (lineFrame 23 (List.replicate 22 0 ++ [0x0C]))) (stateOf r0)).status = 0x3
      ∧ (respond (.dec16 (lineFrame 23 (List.replicate 22 0 ++ [0xF4]))) (stateOf r0)).status = 0x9 := by decide

/-- V14. -/
theorem test_dec24_every_other_field :
    let g := [0x00, 0xF8, 0x3F, 0x00, 0xFE, 0x0F, 0x80, 0xFF, 0x03, 0xE0, 0xFF]
    let i := .dec24 (lineFrame 34 (g ++ g ++ g ++ [0x06]))
    channels (after (exec i (stateOf r0))) = (List.range 24).map (fun k => if k % 2 = 0 then 0 else 2047) ++ [173, 1812]
      ∧ respond i (stateOf r0) = ⟨true, 0x9, false, false⟩ := by decide

/-- V15: the last field and both digital channels. -/
theorem test_dec24_last_field :
    let i := .dec24 (lineFrame 34 (List.replicate 31 0 ++ [0xE0, 0xFF, 0x03]))
    channels (after (exec i (stateOf r0))) = List.replicate 23 0 ++ [2047, 1812, 1812]
      ∧ (respond i (stateOf r0)).status = 0x1 := by decide

/-! ### The calibration engine (section 2.2) -/

/-- CV2. -/
theorem test_calStart :
    (calStart c400 r0).1.calCnt = 400 ∧ (calStart c400 r0).1.trim = ⟨7, 8, 9⟩
      ∧ calComplete (calStart c400 r0).1 = false := by decide

/-- CV1 and CV3. -/
theorem test_calTick_idle_and_first :
    calTick c400 r0 = (r0, ⟨true, 0, false, false⟩)
      ∧ (let o := calTick c400 (running 400 ⟨5, 5, 5⟩ ⟨100, 100, 356⟩)
         o.1.calAcc = ⟨100, 100, 356⟩ ∧ o.1.sample = ⟨0, 0, 0⟩ ∧ o.1.trim = ⟨0, 0, 0⟩ ∧ o.1.calCnt = 399
           ∧ o.2.save = false) := by decide

/-- The final ticks of P4 in both modes, and CV15, where lane Z wraps. -/
theorem test_calTick_final :
    let r := { running 1 ⟨60, -60, 580⟩ ⟨30, -30, 290⟩ with acc1g := 300 }
    (calTick (instanceOf 3 .trunc) r).1.trim = ⟨30, -29, -10⟩
      ∧ (calTick (instanceOf 3 .floor) r).1.trim = ⟨30, -30, -10⟩
      ∧ (calTick (instanceOf 3 .floor) r).1.calDone = true
      ∧ (calTick (instanceOf 3 .floor) r).2.save = true
      ∧ (calTick (instanceOf 1 .trunc) { running 1 Axes.zero ⟨5, -7, 300⟩ with acc1g := 65535 }).1.trim = ⟨5, -7, 301⟩ := by
  decide

/-! ### Host access, reads, reset (sections 2.3 and 2.4) -/

/-- H1. -/
theorem test_sampleWr :
    let t := after (exec (.sampleWr 100 (-5) 356) (stateOf r0))
    readPort c400 t.regs 0x25 = 0xFFFFFFFB ∧ readPort c400 t.regs 0x26 = 0x00000164 := by decide

/-- H4. -/
theorem test_trimWr :
    let t := after (exec (.trimWr (-32768) 32767 (-1)) (stateOf r0))
    readPort c400 t.regs 0x21 = 0xFFFF8000 ∧ readPort c400 t.regs 0x22 = 0x00007FFF
      ∧ readPort c400 t.regs 0x23 = 0xFFFFFFFF := by decide

/-- H3. -/
theorem test_acc1gWr : readPort c400 (after (exec (.acc1gWr 2048) (stateOf r0))).regs 0x27 = 0x00000800 := by decide

/-- H5. -/
theorem test_nop :
    after (exec .nop (stateOf r0)) = stateOf r0 ∧ respond .nop (stateOf r0) = ⟨true, 0, false, false⟩ := by decide

/-- H6. -/
theorem test_reserved :
    [.reserved1001, .reserved101x 0xA, .reserved11xx 0xF].map
        (fun i => (after (exec i (stateOf r0)), respond i (stateOf r0)))
      = List.replicate 3 (stateOf r0, ⟨true, 0, false, true⟩) := by decide

/-- RS1, H9, H10. -/
theorem test_reads_after_reset :
    [0x00, 0x19, 0x1A, 0x1F, 0x20, 0x21, 0x22, 0x23, 0x24, 0x25, 0x26, 0x27, 0x28, 0x29, 0x2A, 0x3F].map (readPort c400 r0)
      = [0x5555, 0x5555, 0, 0, 0, 7, 8, 9, 0, 0, 0, 256, 1, 0x190, 0, 0] := by decide

/-- RS4: reset beats the command of its cycle, and `resp.valid` is 0 in the next one. -/
theorem test_reset_beats_command :
    let s := cycleOf (running 3 Axes.zero Axes.zero) { opCycle 0x4 with rst := true }
    step s = .next ⟨Regs.reset chip, []⟩ ∧ (waves 2 Response.ok s).map (fun o => o.resp.valid) = [true, false] :=
  ⟨rfl, rfl⟩

/-- RS3 and RS4 on RFCORE alone, at the instance of 95_test_vectors.md: the whole state is as after reset. -/
theorem test_transact_reset :
    transact c400 (running 3 ⟨200, 200, 712⟩ Axes.zero) { opCycle 0x4 with rst := true }
      = (r0, ⟨false, 0, false, false⟩) := by decide

/-- A table word placed after reset is the next step's command. -/
theorem test_step_runs_placed_word :
    step (State.reset.withFetchWord 8 0x5) = exec .calTick State.reset
      ∧ step (State.reset.withFetchWord 4 0xF) = exec (.reserved11xx 0xF) State.reset := ⟨rfl, rfl⟩

/-! ### The assembler (30_encoding.md R76, R77) -/

theorem test_parse_lines :
    parseLine "SAMPLE_WR  100, -5, 0x164 ; H1".toList = some [.sampleWr 100 (-5) 356]
      ∧ parseLine "DEC8 [E8 4B 9f 0c]".toList = some [.dec8 [0xE8, 0x4B, 0x9F, 0x0C]]
      ∧ parseLine "READ 0x0F".toList = some [.read 15]
      ∧ parseLine "  ; a comment".toList = some [] := by decide

theorem test_parse_refuses :
    parseLine "TRIM_WR 40000, 0, 0".toList = none ∧ parseLine "ACC1G_WR -1".toList = none
      ∧ parseLine "RESERVED".toList = none ∧ parseLine "CAL_TICK 1".toList = none := by decide

/-- P1, cycle 2: a READ shares the cycle of the next command. -/
theorem test_read_shares_cycle :
    assemble c400 [.nop, .read 15, .calTick, .read 1]
      = some [opCycle 0x0, { opCycle 0x5 with rdAddr := 15 }, { ClockCycle.idle with rdAddr := 1 }] := by decide

theorem test_calRun_expands :
    assemble (instanceOf 2 .trunc) [.calRun 1 2 3]
      = assemble c400 [.calStart, .sampleWr 1 2 3, .calTick, .sampleWr 1 2 3, .calTick] := by decide

/-! ### Witnesses: for each obligation with hypotheses, a case that meets them (each clause at the ends of its range) -/

open Sys2Proof.Claims

/-- The frame port all zero. -/
def zeros : Vector Byte 34 := Vector.replicate 34 0

/-- A frame port that agrees with `zeros` below byte `k` and differs from it on. -/
def onesFrom (k : Nat) : Vector Byte 34 := Vector.ofFn fun i : Fin 34 => if i.val < k then 0 else 0xFF

/-- A state with the given counter and other calibration registers not zero. -/
def ticking (cnt : Half) : State := stateOf (running cnt ⟨1, 2, 3⟩ ⟨4, 5, 6⟩)

theorem test_witness_DecoderFollowsOpcodeMap :
    (∀ op : BitVec 4, (CmdPort.ofOp op).cmdOp = op) ∧ 12 ≤ (CmdPort.ofOp 0xC).cmdOp.toNat
      ∧ 12 ≤ (CmdPort.ofOp 0xF).cmdOp.toNat ∧ (decode (CmdPort.ofOp 0x0)).row = 0 ∧ (decode (CmdPort.ofOp 0xF)).row = 11 := by
  decide

theorem test_witness_DecodeOfEncode :
    Instr.nop.wf = true ∧ (Instr.dec8 (lineFrame 12 [0xFF])).wf = true ∧ (Instr.dec24 zeros).wf = true
      ∧ (Instr.sampleWr 0 0xFFFF 0x8000).wf = true ∧ Instr.reserved1001.wf = true
      ∧ (Instr.reserved101x 0xA).wf = true ∧ (Instr.reserved101x 0xB).wf = true
      ∧ (Instr.reserved11xx 0xC).wf = true ∧ (Instr.reserved11xx 0xF).wf = true := by decide

/-- For each operand list of R72, two ports that agree on it and differ elsewhere. -/
theorem test_witness_UnreadPortsIgnored :
    (∀ i (h : i < 12), zeros[i] = (onesFrom 12)[i]) ∧ zeros ≠ onesFrom 12
      ∧ (∀ i (h : i < 23), zeros[i] = (onesFrom 23)[i]) ∧ zeros ≠ onesFrom 23
      ∧ (let p : CmdPort := ⟨0x3, zeros, 1, 2, 3⟩; let q : CmdPort := ⟨0x3, zeros, 4, 5, 6⟩
         p.cmdOp = q.cmdOp ∧ p.frameIn = q.frameIn ∧ p ≠ q)
      ∧ (let p : CmdPort := ⟨0x6, zeros, 1, 2, 3⟩; let q : CmdPort := ⟨0x6, onesFrom 0, 1, 2, 3⟩
         p.cmdOp = q.cmdOp ∧ p.wdX = q.wdX ∧ p.wdY = q.wdY ∧ p.wdZ = q.wdZ ∧ p ≠ q)
      ∧ (let p : CmdPort := ⟨0x8, zeros, 1, 2, 3⟩; let q : CmdPort := ⟨0x8, onesFrom 0, 1, 5, 6⟩
         p.cmdOp = q.cmdOp ∧ p.wdX = q.wdX ∧ p ≠ q)
      ∧ (let p : CmdPort := ⟨0x5, zeros, 1, 2, 3⟩; let q : CmdPort := ⟨0x5, onesFrom 0, 4, 5, 6⟩
         p.cmdOp = q.cmdOp ∧ p ≠ q) := by decide

theorem test_witness_StepRunsDecodedCommand :
    ∃ s : State, s.input = opCycle 0x5 :: [ClockCycle.idle] ∧ (opCycle 0x5).rst = false ∧ (opCycle 0x5).cmdValid = true :=
  ⟨⟨r0, [opCycle 0x5, ClockCycle.idle]⟩, rfl, rfl, rfl⟩

theorem test_witness_ResetLoadsSpecValues :
    (cycleOf (running 3 Axes.zero Axes.zero) { opCycle 0x4 with rst := true }).input
        = { opCycle 0x4 with rst := true } :: []
      ∧ ({ opCycle 0x4 with rst := true } : ClockCycle).rst = true := by decide

theorem test_witness_IdleCycleHoldsRegisters :
    (stateOf r0).pins.rst = false ∧ (stateOf r0).pins.cmdValid = false
      ∧ (cycleOf r0 ClockCycle.idle).pins.rst = false ∧ (cycleOf r0 ClockCycle.idle).pins.cmdValid = false := by decide

/-- Each kind of cycle of R184: reset with a command, idle, a DEC command, a final tick, the first and last reserved
opcode. -/
theorem test_witness_ResponseDescribesCycleBefore :
    (cycleOf r0 { opCycle 0x1 with rst := true }).response.valid = false ∧ (stateOf r0).response.valid = false
      ∧ (cycleOf r0 (opCycle 0x1)).response = ⟨true, 0x1, false, false⟩
      ∧ (cycleOf (running 1 Axes.zero Axes.zero) (opCycle 0x5)).response.save = true
      ∧ (cycleOf r0 (opCycle 0x9)).response.illegal = true ∧ (cycleOf r0 (opCycle 0xF)).response.illegal = true := by
  decide

/-- Two states with the same registers and command port, of which `rd_addr` and the later input differ. -/
theorem test_witness_StepDependsOnRegistersAndPins :
    let s : State := ⟨r0, [opCycle 0x5]⟩
    let s' : State := ⟨r0, [{ opCycle 0x5 with rdAddr := 0x3F }, opCycle 0x4]⟩
    s.regs = s'.regs ∧ s.pins.rst = s'.pins.rst ∧ s.pins.cmdValid = s'.pins.cmdValid ∧ s.pins.port = s'.pins.port
      ∧ s.pins.rdAddr ≠ s'.pins.rdAddr ∧ s.input.tail ≠ s'.input.tail := by decide

/-- The slots where the clauses of `DecodeEffect` meet. -/
theorem test_witness_DecodeWritesChannelsAndStatus :
    ((7 : Fin 26).val < 8 ∧ (8 : Fin 26).val = 8 ∧ (9 : Fin 26).val = 8 + 1 ∧ 8 + 1 < (10 : Fin 26).val)
      ∧ ((23 : Fin 26).val < 24 ∧ (24 : Fin 26).val = 24 ∧ (25 : Fin 26).val = 24 + 1) := by decide

/-- The last fields, with frames that differ from the flags byte on. -/
theorem test_witness_FieldFormsAgree :
    (∀ i < 11 * 8 / 8, frameByte zeros i = frameByte (onesFrom 11) i) ∧ zeros ≠ onesFrom 11
      ∧ (∀ i < 11 * 24 / 8, frameByte zeros i = frameByte (onesFrom 33) i) ∧ zeros ≠ onesFrom 33 := by decide

theorem test_witness_StatusBitsFollowFlags :
    IsDec 8 (.dec8 (lineFrame 12 [])) ∧ IsDec 16 (.dec16 (lineFrame 23 [])) ∧ IsDec 24 (.dec24 zeros)
      ∧ (∀ n, ¬IsDec n .nop) ∧ ∀ i : Instr, ∃ t, exec i (stateOf r0) = .next t := by
  refine ⟨.inl ⟨_, rfl, rfl⟩, .inr (.inl ⟨_, rfl, rfl⟩), .inr (.inr ⟨_, rfl, rfl⟩), ?_, fun i => exec_completes i _⟩
  rintro n (⟨f, h, -⟩ | ⟨f, h, -⟩ | ⟨f, h, -⟩) <;> cases h

/-- Frames that differ in bits 7:4 of the flags byte alone. -/
theorem test_witness_ReservedFlagBitsIgnored :
    let f8 (b : Nat) := lineFrame 12 (List.replicate 11 1 ++ [b])
    let f16 (b : Nat) := lineFrame 23 (List.replicate 22 1 ++ [b])
    let f24 (b : Nat) := lineFrame 34 (List.replicate 33 1 ++ [b])
    ((∀ i (h : i < 11), (f8 0x0C)[i] = (f8 0xFC)[i]) ∧ ((f8 0x0C)[11] &&& 0x0F) = ((f8 0xFC)[11] &&& 0x0F))
      ∧ ((∀ i (h : i < 22), (f16 0x0C)[i] = (f16 0xFC)[i]) ∧ ((f16 0x0C)[22] &&& 0x0F) = ((f16 0xFC)[22] &&& 0x0F))
      ∧ ((∀ i (h : i < 33), (f24 0x0C)[i] = (f24 0xFC)[i]) ∧ ((f24 0x0C)[33] &&& 0x0F) = ((f24 0xFC)[33] &&& 0x0F)) := by
  decide

/-- A DEC24 and then a DEC8, from two states, and the first and last slot that the DEC8 keeps. -/
theorem test_witness_DecodeIsIdempotentOnWrittenSlots :
    IsDec 24 (.dec24 zeros) ∧ IsDec 8 (.dec8 (lineFrame 12 []))
      ∧ (∃ t u, exec (.dec24 zeros) (stateOf r0) = .next t ∧ exec (.dec8 (lineFrame 12 [])) t = .next u)
      ∧ (∃ t, exec (.dec24 zeros) (ticking 2) = .next t)
      ∧ 8 + 2 ≤ (10 : Fin 26).val ∧ (25 : Fin 26).val ≤ 24 + 1 :=
  ⟨.inr (.inr ⟨_, rfl, rfl⟩), .inl ⟨_, rfl, rfl⟩, ⟨_, _, rfl, rfl⟩, ⟨_, rfl⟩, by decide, by decide⟩

theorem test_witness_DecodeCommutesWithOtherUnit :
    IsDec 24 (.dec24 zeros) ∧ (∀ m, ¬IsDec m .calTick)
      ∧ ∃ t u t' u', exec (.dec24 zeros) (ticking 1) = .next t ∧ exec .calTick t = .next u
          ∧ exec .calTick (ticking 1) = .next t' ∧ exec (.dec24 zeros) t' = .next u' := by
  refine ⟨.inr (.inr ⟨_, rfl, rfl⟩), ?_, _, _, _, _, rfl, rfl, rfl, rfl⟩
  rintro n (⟨f, h, -⟩ | ⟨f, h, -⟩ | ⟨f, h, -⟩) <;> cases h

/-- Counters 0, 1 and above; sums at the ends of `s32`. -/
theorem test_witness_CalTickEffect :
    r0.calCnt = 0 ∧ (running 1 Axes.zero Axes.zero).calCnt = 1 ∧ (running 2 Axes.zero Axes.zero).calCnt ≠ 0
      ∧ (running 2 Axes.zero Axes.zero).calCnt ≠ 1
      ∧ -2147483648 ≤ TickSum c400 (running 2 ⟨0x80000000, 0, 0⟩ Axes.zero) .x
      ∧ TickSum c400 (running 2 ⟨0x7FFFFFFF, 0, 0⟩ Axes.zero) .x ≤ 2147483647
      ∧ -2147483648 ≤ TickSum c400 (running 1 ⟨0x7FFFFFFE, 0, 0⟩ ⟨1, 0, 0⟩) .x
      ∧ TickSum c400 (running 1 ⟨0x7FFFFFFE, 0, 0⟩ ⟨1, 0, 0⟩) .x ≤ 2147483647 := by decide

theorem test_witness_RoundingLaw :
    c400.calN = 400 ∧ c400.n % 2 = 0 ∧ c400.divMode = .trunc ∧ (instanceOf 400 .floor).divMode = .floor
      ∧ -(c400.half : Int) ≤ -200 ∧ -201 < -(c400.half : Int) ∧ ¬((c400.n : Int) ∣ -201 + c400.half) ∧ (-1 : Int) < 0 := by
  decide

/-- The invariant, at the final tick of the longest run of least samples, and inside a short run. -/
theorem test_witness_CalibrationNeverOverflows :
    (let c := instanceOf 65535 .floor
     let r := running 1 ⟨0x80010000, 0, 0x80010000⟩ ⟨0x8000, 0, 0x8000⟩
     r.Inv c ∧ r.calCnt ≠ 0 ∧ r.calCnt = 1)
      ∧ (let r := running 2 ⟨1, 1, 1⟩ Axes.zero; r.Inv (instanceOf 3 .trunc) ∧ r.calCnt ≠ 0) := by
  refine ⟨⟨⟨?_, fun _ a => ?_⟩, by decide, by decide⟩, ⟨?_, fun _ a => ?_⟩, by decide⟩
  · unfold CountBounded; decide
  · cases a <;> decide
  · unfold CountBounded; decide
  · cases a <;> decide

theorem test_witness_OneCycleRunCommitsSample :
    (instanceOf 1 .trunc).calN = 1 ∧ (instanceOf 1 .floor).calN = 1
      ∧ (running 1 Axes.zero ⟨5, -7, 300⟩).calCnt = 1 := by decide

theorem test_witness_RestartDiscardsPartialSum :
    ∃ t u, exec .calStart (ticking 2) = .next t ∧ exec .calTick t = .next u := ⟨_, _, rfl, rfl⟩

/-- A run of one step inside, and the last step of a run. -/
theorem test_witness_RunCommitsRoundedMean :
    let vs : List (Axes 16) := [⟨1, 2, 3⟩]
    vs ≠ [] ∧ vs.length ≤ (instanceOf 2 .trunc).n ∧ vs.length < (instanceOf 2 .trunc).n
      ∧ vs.length ≤ (instanceOf 1 .trunc).n ∧ vs.length = (instanceOf 1 .trunc).n := by decide

theorem test_witness_SourceWorkedRun :
    c400.calN = 400 ∧ (instanceOf 400 .floor).calN = 400 ∧ r0.acc1g = 256 := by decide

theorem test_witness_CalDoneOnlySetByFinalTick :
    (∃ t, exec .calTick (ticking 1) = .next t ∧ t.regs.calDone = true)
      ∧ (let s := cycleOf { r0 with calDone := true } (opCycle 0x4)
         (∃ t, step s = .next t) ∧ s.pins.rst = false ∧ s.regs.calDone = true) :=
  ⟨⟨_, rfl, rfl⟩, ⟨_, rfl⟩, rfl, rfl⟩

/-- The three writers, and a reset that ends a run early. -/
theorem test_witness_CalCntWriters :
    (∃ t, exec .calStart (ticking 2) = .next t) ∧ (∃ t, exec .calTick (ticking 0) = .next t)
      ∧ (∃ t, exec .nop (ticking 2) = .next t) ∧ Instr.nop ≠ .calStart ∧ Instr.nop ≠ .calTick
      ∧ ∃ t, step (cycleOf (running 2 Axes.zero Axes.zero) { opCycle 0x0 with rst := true }) = .next t
          ∧ 2 ≤ (running 2 Axes.zero Axes.zero).calCnt.toNat ∧ t.regs.calCnt = 0 :=
  ⟨⟨_, rfl⟩, ⟨_, rfl⟩, ⟨_, rfl⟩, by decide, by decide, _, rfl, by decide, rfl⟩

/-- Registers that agree in lane X only, and in lane Z and ACC_1G only. -/
theorem test_witness_LanesAreIndependent :
    let r := running 1 ⟨1, 2, 3⟩ ⟨4, 5, 6⟩
    let rx := { running 1 ⟨1, 20, 30⟩ ⟨4, 50, 60⟩ with acc1g := 9 }
    let rz := running 1 ⟨10, 20, 3⟩ ⟨40, 50, 6⟩
    (r.calCnt = rx.calCnt ∧ r.calAcc.lane .x = rx.calAcc.lane .x ∧ r.sample.lane .x = rx.sample.lane .x
        ∧ r.trim.lane .x = rx.trim.lane .x ∧ r ≠ rx)
      ∧ (r.calCnt = rz.calCnt ∧ r.calAcc.lane .z = rz.calAcc.lane .z ∧ r.sample.lane .z = rz.sample.lane .z
        ∧ r.trim.lane .z = rz.trim.lane .z ∧ r.acc1g = rz.acc1g ∧ r ≠ rz) := by decide

/-- Each state of the engine: 0, N, between, 1; and `CAL_N` 1, 2 and 3. -/
theorem test_witness_PhasesCoverTheCounter :
    CountBounded (instanceOf 3 .trunc) (running 0 Axes.zero Axes.zero)
      ∧ CountBounded (instanceOf 3 .trunc) (running 3 Axes.zero Axes.zero)
      ∧ inPhase (instanceOf 3 .trunc) (running 2 Axes.zero Axes.zero) .accumulating = true
      ∧ CountBounded (instanceOf 1 .trunc) (running 1 Axes.zero Axes.zero)
      ∧ CountBounded (instanceOf 2 .trunc) (running 2 Axes.zero Axes.zero) ∧ (instanceOf 2 .trunc).calN = 2 := by
  unfold CountBounded
  decide

/-- A command that is not CAL_TICK, and a run of three cycles. -/
theorem test_witness_AccumulatorIsHidden :
    Instr.calStart ≠ .calTick ∧ (∃ t, exec .calStart (ticking 2) = .next t)
      ∧ (waves 3 Response.none ⟨Regs.reset chip, [opCycle 0x4, opCycle 0x5]⟩).length = 3 :=
  ⟨by decide, ⟨_, rfl⟩, rfl⟩

/-- Before the final tick and at it. -/
theorem test_witness_TrimWriteInRunIsOverwritten :
    ∀ n : Half, n = 1 ∨ n = 2 → (ticking n).regs.calCnt ≠ 0
      ∧ ∃ t u v, exec (.trimWr 9 9 9) (ticking n) = .next t ∧ exec .calTick t = .next u
          ∧ exec .calTick (ticking n) = .next v := by
  rintro n (rfl | rfl) <;> exact ⟨by decide, _, _, _, rfl, rfl, rfl⟩

theorem test_witness_TickWithoutFreshSampleAddsZero :
    CountBounded (instanceOf 2 .trunc) (running 2 ⟨1, 2, 3⟩ ⟨4, 5, 6⟩)
      ∧ CountBounded (instanceOf 3 .trunc) (running 2 ⟨1, 2, 3⟩ ⟨4, 5, 6⟩)
      ∧ 2 ≤ (running 2 ⟨1, 2, 3⟩ ⟨4, 5, 6⟩).calCnt.toNat := by
  unfold CountBounded
  decide

theorem test_witness_FullScaleReadAtFinalTick :
    (ticking 0).regs.calCnt ≠ 1 ∧ (ticking 2).regs.calCnt ≠ 1 ∧ (ticking 1).regs.calCnt = 1
      ∧ ∃ t, exec (.acc1gWr 300) (ticking 2) = .next t :=
  ⟨by decide, by decide, by decide, _, rfl⟩

theorem test_witness_NopOnlyAnswers :
    let s := cycleOf r0 (opCycle 0x0)
    s.pins.rst = false ∧ s.pins.cmdValid = true ∧ s.pins.port.cmdOp = 0x0
      ∧ (stateOf r0).pins.rst = false ∧ (stateOf r0).pins.cmdValid = false := by decide

theorem test_witness_ReservedOpcodesOnlyReport :
    ∀ op : BitVec 4, op = 0x9 ∨ op = 0xF →
      let s := cycleOf r0 (opCycle op)
      s.pins.rst = false ∧ s.pins.cmdValid = true ∧ 9 ≤ s.pins.port.cmdOp.toNat := by decide

/-- Addresses beside the ones that SAMPLE_WR, TRIM_WR and ACC1G_WR change. -/
theorem test_witness_other_addresses :
    ((0x23 : BitVec 6) ≠ 0x24 ∧ (0x23 : BitVec 6) ≠ 0x25 ∧ (0x23 : BitVec 6) ≠ 0x26)
      ∧ ((0x24 : BitVec 6) ≠ 0x21 ∧ (0x24 : BitVec 6) ≠ 0x22 ∧ (0x24 : BitVec 6) ≠ 0x23)
      ∧ (0x28 : BitVec 6) ≠ 0x27 := by decide

theorem test_witness_HostAccessFrame :
    IsHostAccess .nop ∧ IsHostAccess (.sampleWr 1 2 3) ∧ IsHostAccess (.trimWr 1 2 3) ∧ IsHostAccess (.acc1gWr 1)
      ∧ IsHostAccess .reserved1001 ∧ IsHostAccess (.reserved101x 0xA) ∧ IsHostAccess (.reserved11xx 0xF) :=
  ⟨trivial, trivial, trivial, trivial, trivial, trivial, trivial⟩

/-- The ends of the reserved ranges, and the flag bits that read 0. -/
theorem test_witness_ReadMap :
    (∀ a : BitVec 6, a = 0x1A ∨ a = 0x1F ∨ a = 0x2A ∨ a = 0x3F →
        0x1A ≤ a.toNat ∧ a.toNat ≤ 0x1F ∨ 0x2A ≤ a.toNat)
      ∧ 2 ≤ 31 := by decide

theorem test_witness_OutputsFollowRegisters :
    (∃ t, step (cycleOf r0 (opCycle 0x4)) = .next t) ∧ ∃ t, step (stateOf r0) = .next t := ⟨⟨_, rfl⟩, ⟨_, rfl⟩⟩

theorem test_witness_ConfigWithoutCyclesRefused :
    Config.accept c400.toParams = some c400 ∧ ({ c400.toParams with calN := 0 } : Params).calN = 0 := by decide

/-- A state at the start of a run meets the invariants, and its tick completes. -/
theorem test_witness_StepKeepsCalibrationInvariant :
    let s := cycleOf { Regs.reset chip with calCnt := chip.calN } (opCycle 0x5)
    s.regs.Inv chip ∧ ∃ t, step s = .next t :=
  ⟨⟨Nat.le_refl _, fun h => absurd h (Nat.lt_irrefl _)⟩, _, rfl⟩

theorem test_witness_StepKeepsChannelsLegal :
    let s := cycleOf { r0 with ch := Vector.replicate 26 2047 } (opCycle 0x1)
    ChannelsLegal chip s.regs ∧ ∃ t, step s = .next t := by
  refine ⟨fun k => .inl ?_, _, rfl⟩
  revert k
  decide

theorem test_witness_AssembledLineIssuesItsCommand :
    lineCommand (.trimWr 1 (-2) 3) = some (.trimWr 1 (-2) 3) ∧ (AsmLine.sampleWr (-32768) 32767 0).wf = true
      ∧ (AsmLine.trimWr 0 (-32768) 32767).wf = true ∧ (AsmLine.acc1gWr 0).wf = true ∧ (AsmLine.acc1gWr 65535).wf = true
      ∧ (AsmLine.dec8 []).wf = true ∧ (AsmLine.dec8 (List.replicate 12 255)).wf = true
      ∧ (AsmLine.dec16 []).wf = true ∧ (AsmLine.dec16 (List.replicate 23 255)).wf = true
      ∧ (AsmLine.dec24 []).wf = true ∧ (AsmLine.dec24 (List.replicate 34 255)).wf = true := by decide

end Sys2Proof.Tests
end

section
/-!
The admission of a configuration (00_scope.md R7): which instance `Config.accept` answers, and when it answers none.
-/

namespace Sys2Proof

/-- An instance is the answer for its own parameters and for no others. -/
theorem Config.accept_eq_some_iff {p : Params} {c : Config} : Config.accept p = some c ↔ c.toParams = p := by
  constructor
  · intro h
    unfold Config.accept at h
    split at h
    · cases h
    · cases h
      rfl
  · rintro rfl
    exact dif_neg c.calN_ne_zero

/-- R7: only `CAL_N = 0` is refused, since any other `CAL_N` makes an instance. -/
theorem Config.accept_eq_none_iff {p : Params} : Config.accept p = none ↔ p.calN = 0 := by
  constructor
  · intro hnone
    by_contra hne
    have hsome : Config.accept p = some ⟨p, hne⟩ := Config.accept_eq_some_iff.mpr rfl
    exact absurd (hnone.symm.trans hsome) nofun
  · exact fun hzero => dif_pos hzero

end Sys2Proof

open Sys2Proof

/-- Settles O42: the two answers of admission, and the bounds of `CAL_N` that every instance carries. -/
theorem configWithoutCyclesRefused : Obligations.ConfigWithoutCyclesRefused :=
  ⟨fun _ => Config.accept_eq_none_iff, fun _ _ => Config.accept_eq_some_iff.mp, fun c => ⟨c.n_pos, c.n_le⟩⟩

end

section
/-!
The writers of each register (10_state.md R20), one lemma per register: which commands change it, and what every other
command leaves. Then what a cycle without reset can do to the registers.
-/

namespace Sys2Proof.Machine

section
variable (c : Config) (r : Regs)

/-- R24: only CAL_TICK writes CAL_ACC. -/
theorem effect_calAcc_of_ne_calTick {i : Instr} (hi : i ≠ .calTick) : (effect c i r).1.calAcc = r.calAcc := by
  cases i
  case calTick => exact absurd rfl hi
  case dec8 f | dec16 f | dec24 f => exact decodeFrame_calAcc _ f r
  all_goals rfl

/-- R28: only CAL_TICK writes CAL_DONE. -/
theorem effect_calDone_of_ne_calTick {i : Instr} (hi : i ≠ .calTick) : (effect c i r).1.calDone = r.calDone := by
  cases i
  case calTick => exact absurd rfl hi
  case dec8 f | dec16 f | dec24 f => exact decodeFrame_calDone _ f r
  all_goals rfl

/-- R23: only CAL_START and CAL_TICK write CAL_CNT. -/
theorem effect_calCnt_of_ne {i : Instr} (hstart : i ≠ .calStart) (htick : i ≠ .calTick) :
    (effect c i r).1.calCnt = r.calCnt := by
  cases i
  case calStart => exact absurd rfl hstart
  case calTick => exact absurd rfl htick
  case dec8 f | dec16 f | dec24 f => exact decodeFrame_calCnt _ f r
  all_goals rfl

/-- R22: a command keeps CH or replaces it by the channels of a decode. -/
theorem effect_ch (i : Instr) :
    (effect c i r).1.ch = r.ch
      ∨ ∃ (m n : Nat) (f : Vector Byte m), (effect c i r).1.ch = channelsAfter n f r.ch := by
  cases i
  case dec8 f => exact .inr ⟨12, 8, f, rfl⟩
  case dec16 f => exact .inr ⟨23, 16, f, rfl⟩
  case dec24 f => exact .inr ⟨34, 24, f, rfl⟩
  case calTick =>
    left
    by_cases hcnt : r.calCnt = 0
    · rw [effect_calTick, calTick_idle c r hcnt]
    · rw [effect_calTick, calTick_active c r hcnt, activeTick_ch]
  all_goals exact .inl rfl

/-- Taking one off a counter that is not 0 does not wrap (41_calibration.md R138). -/
theorem toNat_sub_one_of_ne_zero {v : Half} (h : v ≠ 0) : (v - 1).toNat = v.toNat - 1 := by
  bv_omega

/-- R138: a tick takes one off CAL_CNT, unless it is 0. -/
theorem calTick_calCnt_toNat : (calTick c r).1.calCnt.toNat = r.calCnt.toNat - 1 := by
  by_cases hcnt : r.calCnt = 0
  · rw [calTick_idle c r hcnt, hcnt]
    rfl
  · rw [calTick_active c r hcnt, activeTick_calCnt, toNat_sub_one_of_ne_zero hcnt]

/-- R137: a tick sets CAL_DONE when it is the final one. -/
theorem calTick_calDone : (calTick c r).1.calDone = (r.calDone || decide (r.calCnt = 1)) := by
  by_cases hidle : r.calCnt = 0
  · simp [calTick_idle c r hidle, hidle]
  · rw [calTick_active c r hidle]
    by_cases hfinal : r.calCnt = 1
    · rw [(activeTick_final c r hfinal).2.1, decide_eq_true hfinal, Bool.or_true]
    · rw [(activeTick_not_final c r hfinal).2.1, decide_eq_false hfinal, Bool.or_false]

/-- R28: CAL_DONE after any command. -/
theorem effect_calDone (i : Instr) :
    (effect c i r).1.calDone = (r.calDone || decide (i = .calTick ∧ r.calCnt = 1)) := by
  by_cases hi : i = .calTick
  · subst hi
    simp [effect_calTick, calTick_calDone]
  · simp [effect_calDone_of_ne_calTick c r hi, hi]

/-- R141: from a counter of 2 or more no command reaches the idle state. -/
theorem effect_calCnt_ne_zero (i : Instr) (h : 2 ≤ r.calCnt.toNat) : (effect c i r).1.calCnt ≠ 0 := by
  by_cases hstart : i = .calStart
  · subst hstart
    exact c.calN_ne_zero
  by_cases htick : i = .calTick
  · subst htick
    have hcnt := calTick_calCnt_toNat c r
    rw [effect_calTick]
    bv_omega
  · rw [effect_calCnt_of_ne c r hstart htick]
    bv_omega

end

/-- Without reset a cycle holds the registers or does what one command does. -/
theorem step_without_reset {s t : State} (h : step s = .next t) (hrst : s.pins.rst = false) :
    t.regs = s.regs ∨ ∃ i, t.regs = (effect chip i s.regs).1 := by
  rw [(step_eq_next.1 h).1]
  cases hv : s.pins.cmdValid with
  | false => exact .inl (by rw [transact_idle _ _ _ hrst hv])
  | true => exact .inr ⟨_, by rw [transact_issue _ _ _ hrst hv]⟩

end Sys2Proof.Machine

open Sys2Proof Sys2Proof.Machine

/-- Settles O26: CAL_DONE after every command is known, and a cycle without reset is a command or holds it. -/
theorem calDoneOnlySetByFinalTick : Obligations.CalDoneOnlySetByFinalTick := by
  refine ⟨fun i s t h => ?_, fun s t h hrst hdone => ?_⟩
  · rw [(exec_eq_next.1 h).1, effect_calDone]
  · obtain hheld | ⟨i, hcmd⟩ := step_without_reset h hrst
    · rw [hheld, hdone]
    · rw [hcmd, effect_calDone, hdone, Bool.true_or]

/-- Settles O27: the writers of CAL_CNT; none of them takes it from 2 or more to 0. -/
theorem calCntWriters : Obligations.CalCntWriters := by
  refine ⟨fun i s t h => ?_, fun s t h hcnt hzero => ?_⟩
  · rw [(exec_eq_next.1 h).1]
    refine ⟨?_, ?_, effect_calCnt_of_ne chip s.regs⟩
    · rintro rfl
      exact calStart_calCnt chip s.regs
    · rintro rfl
      exact calTick_calCnt_toNat chip s.regs
  · by_contra hrst
    obtain hheld | ⟨i, hcmd⟩ := step_without_reset h (Bool.eq_false_of_not_eq_true hrst)
    · rw [hheld] at hzero
      simp [hzero] at hcnt
    · exact effect_calCnt_ne_zero chip s.regs i hcnt (hcmd ▸ hzero)

end

section
/-!
The states of the calibration FSM (10_state.md R30), each under its condition on the counter.
-/

namespace Sys2Proof.Machine

variable {c : Config} {r : Regs}

theorem inPhase_idle_iff : inPhase c r .idle = true ↔ r.calCnt = 0 := beq_iff_eq

theorem inPhase_first_iff : inPhase c r .first = true ↔ r.calCnt = c.calN := beq_iff_eq

theorem inPhase_finalizing_iff : inPhase c r .finalizing = true ↔ r.calCnt = 1 := beq_iff_eq

theorem inPhase_accumulating_iff :
    inPhase c r .accumulating = true ↔ 2 ≤ r.calCnt.toNat ∧ r.calCnt.toNat + 1 ≤ c.calN.toNat := by
  have hn := c.n_pos
  simp only [inPhase, Bool.and_eq_true, decide_eq_true_eq]
  unfold Config.n at hn ⊢
  omega

/-- A counter up to `CAL_N` is 0, or 1, or `CAL_N`, or strictly between. -/
theorem inPhase_covers_counter (h : CountBounded c r) :
    inPhase c r .idle = true ∨ inPhase c r .first = true ∨ inPhase c r .accumulating = true
      ∨ inPhase c r .finalizing = true := by
  rw [inPhase_idle_iff, inPhase_first_iff, inPhase_accumulating_iff, inPhase_finalizing_iff]
  unfold CountBounded Config.n at h
  bv_omega

/-- A counter of 0 is neither `CAL_N`, nor 2 or more, nor 1. -/
theorem inPhase_idle_excludes (h : inPhase c r .idle = true) :
    inPhase c r .first = false ∧ inPhase c r .accumulating = false ∧ inPhase c r .finalizing = false := by
  have hn := c.calN_ne_zero
  simp only [← Bool.not_eq_true, inPhase_first_iff, inPhase_accumulating_iff, inPhase_finalizing_iff]
  rw [inPhase_idle_iff] at h
  bv_omega

/-- A counter strictly between 1 and `CAL_N` is neither. -/
theorem inPhase_accumulating_excludes (h : inPhase c r .accumulating = true) :
    inPhase c r .first = false ∧ inPhase c r .finalizing = false := by
  simp only [← Bool.not_eq_true, inPhase_first_iff, inPhase_finalizing_iff]
  rw [inPhase_accumulating_iff] at h
  bv_omega

/-- One cycle is the first and the final one only in a run of a single cycle (41_calibration.md R139). -/
theorem inPhase_first_and_finalizing_iff :
    inPhase c r .first = true ∧ inPhase c r .finalizing = true ↔ r.calCnt = 1 ∧ c.calN = 1 := by
  rw [inPhase_first_iff, inPhase_finalizing_iff]
  constructor
  · rintro ⟨hfirst, hfinal⟩
    exact ⟨hfinal, hfirst ▸ hfinal⟩
  · rintro ⟨hfinal, hone⟩
    exact ⟨hfinal.trans hone.symm, hfinal⟩

/-- With `CAL_N = 2` there is no counter strictly between 1 and `CAL_N` (R30). -/
theorem inPhase_accumulating_empty (h : c.calN = 2) : inPhase c r .accumulating = false := by
  rw [← Bool.not_eq_true, inPhase_accumulating_iff, h]
  simp only [BitVec.reduceToNat]
  omega

end Sys2Proof.Machine

open Sys2Proof Sys2Proof.Machine

/-- Settles O29: the condition of each state, then the overlaps that follow from the conditions. -/
theorem phasesCoverTheCounter : Obligations.PhasesCoverTheCounter :=
  fun _ _ hcount => ⟨inPhase_idle_iff, inPhase_first_iff, inPhase_accumulating_iff, inPhase_finalizing_iff,
    inPhase_covers_counter hcount, inPhase_idle_excludes, inPhase_first_and_finalizing_iff, inPhase_accumulating_excludes,
    inPhase_accumulating_empty⟩

end

section
/-!
The invariants of the reachable registers: each holds at reset and is kept by every command, so `step_keeps` gives it
for every step.
-/

namespace Sys2Proof.Machine

section
variable {c : Config} {r : Regs}

/-- The invariant speaks of CAL_CNT and CAL_ACC alone. -/
theorem Regs.Inv.congr {r' : Regs} (h : r.Inv c) (hcnt : r'.calCnt = r.calCnt) (hacc : r'.calAcc = r.calAcc) :
    r'.Inv c := by
  simpa only [Regs.Inv, CountBounded, AccBounded, ticksDone, hcnt, hacc] using h

theorem Regs.inv_reset (c : Config) : (Regs.reset c).Inv c := by
  refine ⟨Nat.zero_le _, fun _ a => ?_⟩
  have hlane : ((Regs.reset c).calAcc.lane a).toInt = 0 := by simp
  have hticks : ticksDone c (Regs.reset c) = c.n := by simp [ticksDone]
  omega

/-- The counter CAL_START loads is `CAL_N`, at which nothing is accumulated yet. -/
theorem calStart_inv (c : Config) (r : Regs) : (calStart c r).1.Inv c :=
  ⟨Nat.le_refl _, fun hlt => absurd hlt (Nat.lt_irrefl _)⟩

/-- One tick adds one sample: its sum lies within the sums of one sample more than before (41_calibration.md R142). -/
theorem tickSum_bounds (h : r.Inv c) (a : Axis) :
    -32768 * (ticksDone c r + 1) ≤ tickSum c r a ∧ tickSum c r a ≤ 32767 * (ticksDone c r + 1) := by
  obtain ⟨hcount, hacc⟩ := h
  have hsample := BitVec.le_toInt (r.sample.lane a)
  have hsample' := BitVec.toInt_lt (x := r.sample.lane a)
  unfold CountBounded at hcount
  unfold tickSum
  split
  case isTrue hfirst =>
    have hnone : ticksDone c r = 0 := by simp [ticksDone, inPhase_first_iff.1 hfirst, Config.n]
    omega
  case isFalse hlater =>
    have hne : r.calCnt.toNat ≠ c.n := fun heq => hlater (inPhase_first_iff.2 (BitVec.eq_of_toNat_eq heq))
    obtain ⟨hlow, hhigh⟩ := hacc (by omega) a
    omega

/-- Such a sum fits `s32`, so the accumulator holds it as it is (R142). -/
theorem toInt_accumulatorOf_tickSum (h : r.Inv c) (hcnt : r.calCnt ≠ 0) (a : Axis) :
    (accumulatorOf (tickSum c r a)).toInt = tickSum c r a := by
  have hbounds := tickSum_bounds h a
  have hn := c.n_le
  have hpos : 0 < r.calCnt.toNat := by bv_omega
  have hticks : ticksDone c r + 1 ≤ 65535 := by
    unfold ticksDone
    omega
  exact toInt_accumulatorOf (by omega)

theorem activeTick_inv (h : r.Inv c) (hcnt : r.calCnt ≠ 0) : (activeTick c r).1.Inv c := by
  have hdown := toNat_sub_one_of_ne_zero hcnt
  have hpos : 0 < r.calCnt.toNat := by bv_omega
  have hone : ticksDone c (activeTick c r).1 = ticksDone c r + 1 := by
    simp only [ticksDone, activeTick_calCnt]
    omega
  refine ⟨?_, fun _ a => ?_⟩
  · have hcount := h.1
    unfold CountBounded at hcount ⊢
    rw [activeTick_calCnt]
    omega
  · rw [activeTick_calAcc, toInt_accumulatorOf_tickSum h hcnt, hone]
    exact tickSum_bounds h a

theorem calTick_inv (h : r.Inv c) : (calTick c r).1.Inv c := by
  by_cases hcnt : r.calCnt = 0
  · rwa [calTick_idle c r hcnt]
  · rw [calTick_active c r hcnt]
    exact activeTick_inv h hcnt

/-- Every command keeps the invariant of the calibration engine. -/
theorem effect_inv (i : Instr) (h : r.Inv c) : (effect c i r).1.Inv c := by
  by_cases hstart : i = .calStart
  · subst hstart
    exact calStart_inv c r
  by_cases htick : i = .calTick
  · subst htick
    exact calTick_inv h
  · exact h.congr (effect_calCnt_of_ne c r hstart htick) (effect_calAcc_of_ne_calTick c r htick)

/-! ### The channels -/

theorem toNat_zext16_le (v : BitVec 11) : (zext16 v).toNat ≤ 2047 := by
  have := v.isLt
  simp only [zext16, BitVec.toNat_setWidth]
  omega

theorem toNat_sentinel_le (b : Bool) : (sentinel b).toNat ≤ 2047 := by
  cases b <;> decide

/-- R110: what a decode writes has 11 bits, and the slots it keeps were legal before. -/
theorem channelsAfter_legal {m : Nat} (n : Nat) (f : Vector Byte m) (h : ChannelsLegal c r) (k : Fin 26) :
    (channelsAfter n f r.ch)[k].toNat ≤ 2047 ∨ (channelsAfter n f r.ch)[k] = c.resetFill := by
  obtain hfield | hA | hB | hkept : k.val < n ∨ k.val = n ∨ k.val = n + 1 ∨ n + 1 < k.val := by omega
  · rw [channelsAfter_field n f r.ch k hfield]
    exact .inl (toNat_zext16_le _)
  · rw [channelsAfter_digA n f r.ch k hA]
    exact .inl (toNat_sentinel_le _)
  · rw [channelsAfter_digB n f r.ch k hB]
    exact .inl (toNat_sentinel_le _)
  · rw [channelsAfter_kept n f r.ch k hkept]
    exact h k

theorem Regs.channelsLegal_reset (c : Config) : ChannelsLegal c (Regs.reset c) :=
  fun k => .inr (Regs.reset_ch c k.val k.isLt)

/-- Every command keeps the channels legal. -/
theorem effect_channelsLegal (i : Instr) (h : ChannelsLegal c r) : ChannelsLegal c (effect c i r).1 := by
  intro k
  obtain hkept | ⟨m, n, f, hdec⟩ := effect_ch c r i
  · exact hkept ▸ h k
  · exact hdec ▸ channelsAfter_legal n f h k

end

end Sys2Proof.Machine

open Sys2Proof Sys2Proof.Machine

/-- Settles O44: reset has the invariant and every command keeps it, a tick because it adds one sample. -/
theorem stepKeepsCalibrationInvariant : Obligations.StepKeepsCalibrationInvariant :=
  fun _ _ hs h => step_keeps (Regs.inv_reset chip) (fun i _ => effect_inv i) h hs

/-- Settles O45: reset fills every slot, and a decode writes 11-bit values. -/
theorem stepKeepsChannelsLegal : Obligations.StepKeepsChannelsLegal :=
  fun _ _ hs h => step_keeps (Regs.channelsLegal_reset chip) (fun i _ => effect_channelsLegal i) h hs

/-- Settles O43: the base case of O44 and O45. -/
theorem invariantsHoldAtReset : Obligations.InvariantsHoldAtReset :=
  ⟨Regs.inv_reset chip, Regs.channelsLegal_reset chip⟩

end

section
/-!
Reset (10_state.md R20): the values it loads, and that it wins over the command of its cycle.
-/

namespace Sys2Proof.Machine

theorem Regs.atReset_reset : Claims.AtReset (Regs.reset chip) :=
  ⟨fun k => Regs.reset_ch chip k.val k.isLt, rfl, fun _ => Axes.lane_zero _, fun _ => Axes.lane_zero _, rfl, rfl, rfl⟩

end Sys2Proof.Machine

open Sys2Proof Sys2Proof.Machine

/-- Settles O7: a cycle with `rst = 1` is the first case of a transaction, whatever command it carries. -/
theorem resetLoadsSpecValues : Obligations.ResetLoadsSpecValues := by
  refine ⟨⟨Regs.atReset_reset, rfl⟩, fun s p ps hinput hrst => ?_⟩
  have hpins : s.pins = p := by rw [State.pins, hinput, List.headD_cons]
  have hreset : transact chip s.regs s.pins = (Regs.reset chip, Response.none) :=
    transact_reset chip s.regs s.pins (hpins ▸ hrst)
  have hresp : s.response = Response.none := congrArg Prod.snd hreset
  refine ⟨hresp, ⟨Regs.reset chip, ps⟩, ?_, Regs.atReset_reset, rfl, fun b => ?_⟩
  · rw [step_eq_next, hreset, hinput]
    exact ⟨rfl, rfl⟩
  · rw [waves_succ, waves_succ, waves_zero, hreset, hinput, hresp]
    rfl

end

section
/-!
CAL_ACC is hidden (10_state.md R24). Two register sets that differ in the accumulators alone answer alike in a cycle;
and if no run has begun to accumulate, they stay such a pair or become equal, since the first tick of a run does not
read the accumulators.
-/

namespace Sys2Proof.Machine

section
variable (c : Config) (r : Regs) (acc : Axes 32)

/-- No read address returns CAL_ACC. -/
theorem readPort_calAcc (a : BitVec 6) : readPort c { r with calAcc := acc } a = readPort c r a := rfl

/-- No output shows CAL_ACC. -/
theorem outputs_calAcc (input : List ClockCycle) (b : Response) :
    (State.mk { r with calAcc := acc } input).outputs b = (State.mk r input).outputs b := rfl

/-- A command other than CAL_TICK passes the accumulators through and does not read them. -/
theorem effect_with_calAcc {i : Instr} (hi : i ≠ .calTick) :
    effect c i { r with calAcc := acc } = ({ (effect c i r).1 with calAcc := acc }, (effect c i r).2) := by
  cases i
  case calTick => exact absurd rfl hi
  all_goals rfl

/-- The response of a tick says whether it was the final one, which the counter decides. -/
theorem calTick_resp_calAcc : (calTick c { r with calAcc := acc }).2 = (calTick c r).2 := by
  by_cases hcnt : r.calCnt = 0
  · rw [calTick_idle c r hcnt, calTick_idle c { r with calAcc := acc } hcnt]
  · rw [calTick_active c r hcnt, calTick_active c { r with calAcc := acc } hcnt]
    rfl

theorem effect_resp_calAcc (i : Instr) : (effect c i { r with calAcc := acc }).2 = (effect c i r).2 := by
  by_cases hi : i = .calTick
  · subst hi
    exact calTick_resp_calAcc c r acc
  · rw [effect_with_calAcc c r acc hi]

theorem transact_resp_calAcc (p : ClockCycle) :
    (transact c { r with calAcc := acc } p).2 = (transact c r p).2 := by
  unfold transact
  split
  · rfl
  · split
    · exact effect_resp_calAcc c r acc _
    · rfl

end

/-- Registers that differ at most in accumulators no tick reads: the counter is 0, or still at `CAL_N`. -/
inductive SameButUnreadAcc (c : Config) (r : Regs) : Regs → Prop where
  | same : SameButUnreadAcc c r r
  | unread (acc : Axes 32) (h : r.calCnt = 0 ∨ r.calCnt = c.calN) : SameButUnreadAcc c r { r with calAcc := acc }

section
variable {c : Config} {r r' : Regs}

/-- The first tick of a run zeroes the accumulators before it adds (41_calibration.md R133). -/
theorem tickSum_first (h : r.calCnt = c.calN) (a : Axis) : tickSum c r a = (r.sample.lane a).toInt := by
  rw [tickSum, if_pos (inPhase_first_iff.2 h), Int.zero_add]

/-- So it makes the same registers of any accumulators. -/
theorem calTick_first_calAcc (h : r.calCnt = c.calN) (acc : Axes 32) :
    calTick c { r with calAcc := acc } = calTick c r := by
  have hne : r.calCnt ≠ 0 := h ▸ c.calN_ne_zero
  have hsum : tickSum c { r with calAcc := acc } = tickSum c r := by
    funext a
    rw [tickSum_first h, tickSum_first (r := { r with calAcc := acc }) h]
  have htrim : commitTrim c { r with calAcc := acc } = commitTrim c r := by
    simp only [commitTrim, hsum]
  rw [calTick_active c r hne, calTick_active c { r with calAcc := acc } hne]
  simp only [activeTick, hsum, htrim]
  rfl

/-- Every command keeps the pair alike: CAL_START leaves the counter at `CAL_N`, and from there the tick makes the
registers equal. -/
theorem effect_sameButUnreadAcc (h : SameButUnreadAcc c r r') (i : Instr) :
    SameButUnreadAcc c (effect c i r).1 (effect c i r').1 := by
  cases h with
  | same => exact .same
  | unread acc hcnt =>
    by_cases htick : i = .calTick
    · subst htick
      rw [effect_calTick, effect_calTick]
      obtain hidle | hfirst := hcnt
      · rw [calTick_idle c r hidle, calTick_idle c { r with calAcc := acc } hidle]
        exact .unread acc (.inl hidle)
      · rw [calTick_first_calAcc hfirst acc]
        exact .same
    · rw [effect_with_calAcc c r acc htick]
      refine .unread acc ?_
      by_cases hstart : i = .calStart
      · subst hstart
        exact .inr rfl
      · rwa [effect_calCnt_of_ne c r hstart htick]

theorem transact_sameButUnreadAcc (h : SameButUnreadAcc c r r') (p : ClockCycle) :
    SameButUnreadAcc c (transact c r p).1 (transact c r' p).1 := by
  unfold transact
  split
  · exact .same
  · split
    · exact effect_sameButUnreadAcc h _
    · exact h

/-- Such a pair drives the same outputs in every cycle. -/
theorem waves_eq_of_sameButUnreadAcc (k : Nat) (h : SameButUnreadAcc chip r r') (b : Response)
    (input : List ClockCycle) :
    waves k b ⟨r', input⟩ = waves k b ⟨r, input⟩ := by
  induction k generalizing r r' b input with
  | zero => rfl
  | succ k ih =>
    have houtputs : (State.mk r' input).outputs b = (State.mk r input).outputs b := by
      cases h with
      | same => rfl
      | unread acc _ => exact outputs_calAcc r acc input b
    have hresp : (State.mk r' input).response = (State.mk r input).response := by
      cases h with
      | same => rfl
      | unread acc _ => exact transact_resp_calAcc chip r acc _
    rw [waves_succ, waves_succ, houtputs, hresp]
    exact congrArg _ (ih (transact_sameButUnreadAcc h _) _ _)

end

end Sys2Proof.Machine

open Sys2Proof Sys2Proof.Machine

/-- Settles O30: reset leaves the counter at 0, where the accumulators are unread. -/
theorem accumulatorIsHidden : Obligations.AccumulatorIsHidden := by
  refine ⟨fun i s t hi h => ?_, readPort_calAcc, fun s acc b => ⟨?_, ?_⟩, fun input acc k b => ?_⟩
  · rw [(exec_eq_next.1 h).1, effect_calAcc_of_ne_calTick chip s.regs hi]
  · exact outputs_calAcc s.regs acc s.input b
  · exact transact_resp_calAcc chip s.regs acc s.pins
  · exact waves_eq_of_sameButUnreadAcc k (.unread acc (.inl rfl)) b input

end

section
/-!
The read map (20_memory.md R55), one equation per row: which register an address returns, and by which extension. A
reserved address returns 0 (R56).
-/

namespace Sys2Proof.Machine

theorem toNat_zext32 (v : Half) : (zext32 v).toNat = v.toNat :=
  BitVec.toNat_setWidth_of_le (by decide)

theorem toInt_sext32 (v : Half) : (sext32 v).toInt = v.toInt :=
  BitVec.toInt_signExtend_of_le (by decide)

theorem calComplete_iff {r : Regs} : calComplete r = true ↔ r.calCnt = 0 := beq_iff_eq

/-- CAL_FLAGS bit by bit (R55). -/
theorem getLsbD_calFlags (r : Regs) (j : Nat) :
    (calFlags r).getLsbD j = (decide (j = 0) && calComplete r || decide (j = 1) && r.calDone) := by
  have hbit1 : (2#32).getLsbD j = decide (j = 1) := by
    rw [show 2#32 = BitVec.twoPow 32 1 from rfl, BitVec.getLsbD_twoPow]
    simp [eq_comm]
  unfold calFlags
  rw [BitVec.getLsbD_or]
  cases calComplete r <;> cases r.calDone <;> simp [hbit1]

section
variable (c : Config) (r : Regs)

theorem readPort_ch (k : Fin 26) : readPort c r (BitVec.ofNat 6 k.val) = zext32 r.ch[k] := by
  have haddr : (BitVec.ofNat 6 k.val).toNat = k.val := Nat.mod_eq_of_lt (by omega)
  simp [readPort, haddr]

@[simp] theorem readPort_calCnt : readPort c r 0x20 = zext32 r.calCnt := rfl
@[simp] theorem readPort_trimX : readPort c r 0x21 = sext32 r.trim.x := rfl
@[simp] theorem readPort_trimY : readPort c r 0x22 = sext32 r.trim.y := rfl
@[simp] theorem readPort_trimZ : readPort c r 0x23 = sext32 r.trim.z := rfl
@[simp] theorem readPort_sampleX : readPort c r 0x24 = sext32 r.sample.x := rfl
@[simp] theorem readPort_sampleY : readPort c r 0x25 = sext32 r.sample.y := rfl
@[simp] theorem readPort_sampleZ : readPort c r 0x26 = sext32 r.sample.z := rfl
@[simp] theorem readPort_acc1g : readPort c r 0x27 = zext32 r.acc1g := rfl
@[simp] theorem readPort_calFlags : readPort c r 0x28 = calFlags r := rfl
@[simp] theorem readPort_calN : readPort c r 0x29 = zext32 c.calN := rfl

/-- R56: above the channels and outside `0x20` to `0x29` no row of the map applies. -/
theorem readPort_reserved (a : BitVec 6) (h : 0x1A ≤ a.toNat ∧ a.toNat ≤ 0x1F ∨ 0x2A ≤ a.toNat) :
    readPort c r a = 0 := by
  have hch : ¬a.toNat < 26 := by omega
  have hrow : ∀ b : BitVec 6, 0x20 ≤ b.toNat ∧ b.toNat ≤ 0x29 → a ≠ b := by
    rintro b hb rfl
    omega
  simp [readPort, hch, hrow]

end

/-! ### A step does not read `rd_addr` -/

theorem step_rdAddr (r : Regs) (p : ClockCycle) (ps : List ClockCycle) (a : BitVec 6) :
    step ⟨r, { p with rdAddr := a } :: ps⟩ = step ⟨r, p :: ps⟩ := by
  rw [step_eq_commit, step_eq_commit, State.pins_cons, transact_rdAddr]
  rfl

theorem response_rdAddr (r : Regs) (p : ClockCycle) (ps : List ClockCycle) (a : BitVec 6) :
    (State.mk r ({ p with rdAddr := a } :: ps)).response = (State.mk r (p :: ps)).response :=
  congrArg Prod.snd (transact_rdAddr chip r p a)

end Sys2Proof.Machine

open Sys2Proof Sys2Proof.Machine

/-- Settles O40: a transaction does not read `rd_addr`, and each row of the map is a register under one extension. -/
theorem readMap : Obligations.ReadMap := by
  refine ⟨fun s p ps a b => ⟨?_, ?_⟩, fun c r => ⟨fun k => ?_, ?_⟩⟩
  · exact (step_rdAddr s.regs p ps a).trans (step_rdAddr s.regs p ps b).symm
  · exact (response_rdAddr s.regs p ps a).trans (response_rdAddr s.regs p ps b).symm
  · rw [readPort_ch, toNat_zext32]
  · simp only [readPort_calCnt, readPort_trimX, readPort_trimY, readPort_trimZ, readPort_sampleX, readPort_sampleY,
      readPort_sampleZ, readPort_acc1g, readPort_calFlags, readPort_calN, toNat_zext32, toInt_sext32, getLsbD_calFlags,
      true_and]
    refine ⟨?_, ?_, fun j hj => ?_, rfl, readPort_reserved c r⟩
    · simp [calComplete_iff]
    · simp
    · have h0 : j ≠ 0 := by omega
      have h1 : j ≠ 1 := by omega
      simp [h0, h1]

end

section
/-!
The outputs of two cycles (20_memory.md R54, 60_exceptions.md R185): those of the state before a step, then those of
the state after it with the step's response.
-/

namespace Sys2Proof.Machine

@[simp] theorem waves_one (b : Response) (s : State) : waves 1 b s = [s.outputs b] := by
  rw [waves_succ, waves_zero]

/-- A step's response is driven in the next cycle, with the outputs of the state the step made. -/
theorem waves_succ_of_step {s t : State} (h : step s = .next t) (k : Nat) (b : Response) :
    waves (k + 1) b s = s.outputs b :: waves k s.response t := by
  rw [waves, h]

end Sys2Proof.Machine

open Sys2Proof Sys2Proof.Machine

/-- Settles O41: the two cycles are those of `waves_succ_of_step`; what each pin shows is how the outputs are defined. -/
theorem outputsFollowRegisters : Obligations.OutputsFollowRegisters := by
  intro s t b h
  have hwaves : waves 2 b s = [s.outputs b, t.outputs s.response] := by
    rw [waves_succ_of_step h, waves_one]
  exact ⟨hwaves, rfl, rfl, rfl, rfl, calComplete_iff, rfl, calComplete_iff.2 (Regs.reset_calCnt chip)⟩

end

section
/-!
The decoder row by row (30_encoding.md R73, R74), the encoder as its right inverse (R72), and which bytes of the frame
port a DEC command takes (20_memory.md R52).
-/

namespace Sys2Proof

/-! ### The bytes of the frame port -/

section
variable {m : Nat} (hm : m ≤ 34)

@[simp] theorem getElem_takeFrame (f : Vector Byte 34) (i : Nat) (hi : i < m) : (takeFrame m hm f)[i] = f[i] := by
  simp [takeFrame]

/-- A DEC command reads no byte above its own. -/
theorem takeFrame_congr {f g : Vector Byte 34} (h : ∀ i (hi : i < m), f[i] = g[i]) :
    takeFrame m hm f = takeFrame m hm g := by
  ext i hi
  rw [getElem_takeFrame, getElem_takeFrame, h i hi]

@[simp] theorem takeFrame_padFrame (f : Vector Byte m) : takeFrame m hm (padFrame f) = f := by
  ext i hi
  simp [padFrame, hi]

end

/-! ### The decoder -/

section
variable {p : CmdPort}

theorem decode_nop (h : p.cmdOp = 0x0) : decode p = .nop := if_pos h

theorem decode_dec8 (h : p.cmdOp = 0x1) : decode p = .dec8 (takeFrame 12 (by decide) p.frameIn) := by
  simp [decode, decodeVariant, h]

theorem decode_dec16 (h : p.cmdOp = 0x2) : decode p = .dec16 (takeFrame 23 (by decide) p.frameIn) := by
  simp [decode, decodeVariant, h]

theorem decode_dec24 (h : p.cmdOp = 0x3) : decode p = .dec24 p.frameIn := by
  simp [decode, decodeVariant, h]

theorem decode_calStart (h : p.cmdOp = 0x4) : decode p = .calStart := by simp [decode, h]

theorem decode_calTick (h : p.cmdOp = 0x5) : decode p = .calTick := by simp [decode, h]

theorem decode_sampleWr (h : p.cmdOp = 0x6) : decode p = .sampleWr p.wdX p.wdY p.wdZ := by simp [decode, h]

theorem decode_trimWr (h : p.cmdOp = 0x7) : decode p = .trimWr p.wdX p.wdY p.wdZ := by simp [decode, h]

theorem decode_acc1gWr (h : p.cmdOp = 0x8) : decode p = .acc1gWr p.wdX := by simp [decode, h]

theorem decode_reserved1001 (h : p.cmdOp = 0x9) : decode p = .reserved1001 := by simp [decode, decodeReserved, h]

theorem decode_reserved101x (h : p.cmdOp = 0xA ∨ p.cmdOp = 0xB) : decode p = .reserved101x p.cmdOp := by
  rcases h with h | h <;> simp [decode, decodeReserved, h]

/-- The opcodes 11xx, one by one. -/
theorem opcode_11xx_cases : ∀ op : BitVec 4, 12 ≤ op.toNat → op = 0xC ∨ op = 0xD ∨ op = 0xE ∨ op = 0xF := by decide

theorem decode_reserved11xx (h : 12 ≤ p.cmdOp.toNat) : decode p = .reserved11xx p.cmdOp := by
  rcases opcode_11xx_cases _ h with h | h | h | h <;> simp [decode, decodeReserved, h]

end

/-- Every 4-bit value is an opcode of one of R73's rows. -/
theorem opcode_cases : ∀ op : BitVec 4,
    op = 0x0 ∨ op = 0x1 ∨ op = 0x2 ∨ op = 0x3 ∨ op = 0x4 ∨ op = 0x5 ∨ op = 0x6 ∨ op = 0x7 ∨ op = 0x8 ∨ op = 0x9
      ∨ (op = 0xA ∨ op = 0xB) ∨ 12 ≤ op.toNat := by decide

/-! ### The encoder -/

@[simp] theorem encode_cmdOp (i : Instr) : (encode i).cmdOp = i.opcode := by cases i <;> rfl

theorem reserved101x_wf_iff : ∀ op : BitVec 4, (Instr.reserved101x op).wf = true ↔ op = 0xA ∨ op = 0xB := by decide

theorem reserved11xx_wf_iff : ∀ op : BitVec 4, (Instr.reserved11xx op).wf = true ↔ 12 ≤ op.toNat := by decide

/-- The port of a well-formed command decodes to it, since the decoder reads only the ports the encoder fills. -/
theorem decode_encode {i : Instr} (hwf : i.wf = true) : decode (encode i) = i := by
  cases i with
  | nop => exact decode_nop rfl
  | dec8 f => exact (decode_dec8 rfl).trans (congrArg Instr.dec8 (takeFrame_padFrame _ f))
  | dec16 f => exact (decode_dec16 rfl).trans (congrArg Instr.dec16 (takeFrame_padFrame _ f))
  | dec24 f => exact decode_dec24 rfl
  | calStart => exact decode_calStart rfl
  | calTick => exact decode_calTick rfl
  | sampleWr x y z => exact decode_sampleWr rfl
  | trimWr x y z => exact decode_trimWr rfl
  | acc1gWr v => exact decode_acc1gWr rfl
  | reserved1001 => exact decode_reserved1001 rfl
  | reserved101x op => exact decode_reserved101x ((reserved101x_wf_iff op).1 hwf)
  | reserved11xx op => exact decode_reserved11xx ((reserved11xx_wf_iff op).1 hwf)

/-- The decoder answers a well-formed command of the opcode on the port. -/
theorem decode_wf_and_opcode (p : CmdPort) : (decode p).wf = true ∧ (decode p).opcode = p.cmdOp := by
  rcases opcode_cases p.cmdOp with h | h | h | h | h | h | h | h | h | h | h | h
  · simp [decode_nop h, Instr.wf, Instr.opcode, h]
  · simp [decode_dec8 h, Instr.wf, Instr.opcode, h]
  · simp [decode_dec16 h, Instr.wf, Instr.opcode, h]
  · simp [decode_dec24 h, Instr.wf, Instr.opcode, h]
  · simp [decode_calStart h, Instr.wf, Instr.opcode, h]
  · simp [decode_calTick h, Instr.wf, Instr.opcode, h]
  · simp [decode_sampleWr h, Instr.wf, Instr.opcode, h]
  · simp [decode_trimWr h, Instr.wf, Instr.opcode, h]
  · simp [decode_acc1gWr h, Instr.wf, Instr.opcode, h]
  · simp [decode_reserved1001 h, Instr.wf, Instr.opcode, h]
  · rw [decode_reserved101x h]
    exact ⟨(reserved101x_wf_iff _).2 h, rfl⟩
  · rw [decode_reserved11xx h]
    exact ⟨(reserved11xx_wf_iff _).2 h, rfl⟩

theorem encode_decode_cmdOp (p : CmdPort) : (encode (decode p)).cmdOp = p.cmdOp :=
  (encode_cmdOp _).trans (decode_wf_and_opcode p).2

/-- R73: every well-formed command is of its own row of the opcode table and of no other. -/
theorem opcode_lies_in_own_row (i : Instr) : Laws.OpcodeRow.Statement i := by
  cases i with
  | nop => exact Laws.OpcodeRow.nop
  | dec8 f => exact Laws.OpcodeRow.dec8 f
  | dec16 f => exact Laws.OpcodeRow.dec16 f
  | dec24 f => exact Laws.OpcodeRow.dec24 f
  | calStart => exact Laws.OpcodeRow.calStart
  | calTick => exact Laws.OpcodeRow.calTick
  | sampleWr x y z => exact Laws.OpcodeRow.sampleWr x y z
  | trimWr x y z => exact Laws.OpcodeRow.trimWr x y z
  | acc1gWr v => exact Laws.OpcodeRow.acc1gWr v
  | reserved1001 => exact Laws.OpcodeRow.reserved1001
  | reserved101x op => exact Laws.OpcodeRow.reserved101x op
  | reserved11xx op => exact Laws.OpcodeRow.reserved11xx op

/-- The rows of the opcode table that cover an opcode are the one row of its command. -/
theorem covers_cmdOp_iff_row_decode (p : CmdPort) (k : Fin 12) :
    (opcodeTable[k.val]?).any (fun row => row.covers p.cmdOp) = true ↔ k.val = (decode p).row := by
  have hrow := opcode_lies_in_own_row (decode p) (decode_wf_and_opcode p).1 k
  rwa [encode_decode_cmdOp] at hrow

end Sys2Proof

open Sys2Proof Sys2Proof.Machine

/-- Settles O5: the two ports have the same row, and each row's command takes only the ports on which they agree. -/
theorem unreadPortsIgnored : Obligations.UnreadPortsIgnored := by
  intro p q hop hdec8 hdec16 hdec24 hwrite hacc1g
  rcases opcode_cases p.cmdOp with h | h | h | h | h | h | h | h | h | h | h | h
  · rw [decode_nop h, decode_nop (hop ▸ h)]
  · rw [decode_dec8 h, decode_dec8 (hop ▸ h), takeFrame_congr _ (hdec8 h)]
  · rw [decode_dec16 h, decode_dec16 (hop ▸ h), takeFrame_congr _ (hdec16 h)]
  · rw [decode_dec24 h, decode_dec24 (hop ▸ h), hdec24 h]
  · rw [decode_calStart h, decode_calStart (hop ▸ h)]
  · rw [decode_calTick h, decode_calTick (hop ▸ h)]
  · obtain ⟨hx, hy, hz⟩ := hwrite (.inl h)
    rw [decode_sampleWr h, decode_sampleWr (hop ▸ h), hx, hy, hz]
  · obtain ⟨hx, hy, hz⟩ := hwrite (.inr h)
    rw [decode_trimWr h, decode_trimWr (hop ▸ h), hx, hy, hz]
  · rw [decode_acc1gWr h, decode_acc1gWr (hop ▸ h), hacc1g h]
  · rw [decode_reserved1001 h, decode_reserved1001 (hop ▸ h)]
  · rw [decode_reserved101x h, decode_reserved101x (hop ▸ h), hop]
  · rw [decode_reserved11xx h, decode_reserved11xx (hop ▸ h), hop]

/-- Settles O1: the decoder's rows, and the table's one row for what it answers. -/
theorem decoderFollowsOpcodeMap : Obligations.DecoderFollowsOpcodeMap := fun p =>
  ⟨decode_nop, fun h => ⟨_, decode_dec8 h, getElem_takeFrame _ p.frameIn⟩,
    fun h => ⟨_, decode_dec16 h, getElem_takeFrame _ p.frameIn⟩, decode_dec24, decode_calStart, decode_calTick,
    decode_sampleWr, decode_trimWr, decode_acc1gWr, decode_reserved1001, decode_reserved101x, decode_reserved11xx,
    covers_cmdOp_iff_row_decode p⟩

/-- Settles O6: the step of an issuing cycle and the command are the same edge, since both write the command's
effect. -/
theorem stepRunsDecodedCommand : Obligations.StepRunsDecodedCommand := by
  rintro ⟨r, _⟩ p ps rfl hrst hvalid
  rw [step_eq_commit, State.pins_cons, transact_issue _ _ _ hrst hvalid, exec_eq_commit]
  rfl

end

section
/-!
The assembler (30_encoding.md R76, R77): which operands it accepts, what a line's command holds, and when two programs
assemble to the same cycles.
-/

namespace Sys2Proof

/-! ### The ranges -/

@[simp] theorem isS16_iff {i : Int} : isS16 i = true ↔ -32768 ≤ i ∧ i ≤ 32767 := by simp [isS16]

@[simp] theorem isU16_iff {i : Int} : isU16 i = true ↔ 0 ≤ i ∧ i ≤ 65535 := by simp [isU16]

@[simp] theorem areBytes_iff {most : Nat} {bs : List Nat} :
    areBytes most bs = true ↔ bs.length ≤ most ∧ ∀ b ∈ bs, b < 256 := by simp [areBytes]

/-- The three operands of a SAMPLE_WR or TRIM_WR line are each in range. -/
theorem areS16_iff {x y z : Int} :
    (isS16 x && isS16 y && isS16 z) = true ↔ ∀ i ∈ [x, y, z], -32768 ≤ i ∧ i ≤ 32767 := by
  simp [and_assoc]

/-- A signed operand in range keeps its value on a 16-bit port. -/
theorem toInt_ofInt_of_s16 {i : Int} (h : -32768 ≤ i ∧ i ≤ 32767) : (BitVec.ofInt 16 i).toInt = i := by
  rw [BitVec.toInt_ofInt, Int.bmod_eq_of_le] <;> omega

theorem toInt_ofInt_of_areS16 {x y z : Int} (h : (isS16 x && isS16 y && isS16 z) = true) :
    (BitVec.ofInt 16 x).toInt = x ∧ (BitVec.ofInt 16 y).toInt = y ∧ (BitVec.ofInt 16 z).toInt = z := by
  have hrange := areS16_iff.1 h
  exact ⟨toInt_ofInt_of_s16 (hrange x (by simp)), toInt_ofInt_of_s16 (hrange y (by simp)),
    toInt_ofInt_of_s16 (hrange z (by simp))⟩

/-- An unsigned operand in range keeps its value on a 16-bit port. -/
theorem toNat_ofInt_of_isU16 {i : Int} (h : isU16 i = true) : ((BitVec.ofInt 16 i).toNat : Int) = i := by
  obtain ⟨hlo, hhi⟩ := isU16_iff.1 h
  rw [BitVec.toNat_ofInt]
  omega

end Sys2Proof

namespace Sys2Proof.Machine

/-! ### A line and its command -/

/-- Each byte of a DEC line stands at its place, and an omitted one is 0. -/
theorem toNat_getElem_lineFrame {m most : Nat} {bs : List Nat} (h : areBytes most bs = true) (i : Nat) (hi : i < m) :
    (lineFrame m bs)[i].toNat = bs.getD i 0 := by
  have hbyte : bs.getD i 0 < 256 := by
    rcases Nat.lt_or_ge i bs.length with hlt | hge
    · rw [List.getD_eq_getElem _ _ hlt]
      exact (areBytes_iff.1 h).2 _ (List.getElem_mem hlt)
    · rw [List.getD_eq_default _ _ hge]
      decide
  rw [lineFrame, Vector.getElem_ofFn, BitVec.toNat_ofNat, Nat.mod_eq_of_lt hbyte]

/-- No line stands for a reserved opcode. -/
theorem lineCommand_wf {l : AsmLine} {i : Instr} (h : lineCommand l = some i) : i.wf = true := by
  cases l <;> cases h <;> rfl

theorem lineCycle_of_command {l : AsmLine} {i : Instr} (h : lineCommand l = some i) :
    lineCycle l = ClockCycle.issue (encode i) := by
  rw [lineCycle, h]

/-! ### Whole programs -/

theorem assemble_isSome (c : Config) (ls : List AsmLine) : (assemble c ls).isSome = ls.all AsmLine.wf := by
  unfold assemble
  split <;> simp [*]

theorem assemble_singleton_isSome_iff (c : Config) (l : AsmLine) :
    (assemble c [l]).isSome = true ↔ l.wf = true := by
  rw [assemble_isSome, List.all_cons, List.all_nil, Bool.and_true]

/-- Lines in the middle of a program may be exchanged for others that are accepted when they are and that expand to the
same lines. -/
theorem assemble_replace {c : Config} {ls ms : List AsmLine} (hwf : ls.all AsmLine.wf = ms.all AsmLine.wf)
    (hexpand : ls.flatMap (expand c) = ms.flatMap (expand c)) (pre rest : List AsmLine) :
    assemble c (pre ++ (ls ++ rest)) = assemble c (pre ++ (ms ++ rest)) := by
  simp only [assemble, List.all_append, List.flatMap_append, hwf, hexpand]

/-- Repeating a line does not change whether it is accepted. -/
theorem all_wf_replicate {n : Nat} (hn : 0 < n) (l : AsmLine) : (List.replicate n l).all AsmLine.wf = l.wf := by
  rw [List.all_replicate, if_neg hn.ne']

end Sys2Proof.Machine

open Sys2Proof Sys2Proof.Machine

/-- Settles O46: a one-line program is assembled exactly if its line is well formed, which is R76's ranges. -/
theorem assemblerRefusesOutOfRange : Obligations.AssemblerRefusesOutOfRange := by
  intro c x y z v bs
  have hline := assemble_singleton_isSome_iff c
  exact ⟨(hline _).trans areS16_iff, (hline _).trans areS16_iff, (hline _).trans isU16_iff,
    (hline _).trans areBytes_iff, (hline _).trans areBytes_iff, (hline _).trans areBytes_iff⟩

/-- Settles O47: a line's command is well formed, so its cycle's port decodes to it; operands in range and bytes keep
their values. -/
theorem assembledLineIssuesItsCommand : Obligations.AssembledLineIssuesItsCommand := by
  refine ⟨fun l i h => ?_, rfl, rfl, rfl, fun x y z h => ?_, fun x y z h => ?_, fun v h => ?_, fun bs h => ?_,
    fun bs h => ?_, fun bs h => ?_, rfl, rfl⟩
  · rw [lineCycle_of_command h]
    exact ⟨rfl, rfl, decode_encode (lineCommand_wf h)⟩
  · exact ⟨_, _, _, rfl, toInt_ofInt_of_areS16 h⟩
  · exact ⟨_, _, _, rfl, toInt_ofInt_of_areS16 h⟩
  · exact ⟨_, rfl, toNat_ofInt_of_isU16 h⟩
  · exact ⟨_, rfl, toNat_getElem_lineFrame h⟩
  · exact ⟨_, rfl, toNat_getElem_lineFrame h⟩
  · exact ⟨_, rfl, toNat_getElem_lineFrame h⟩

/-- Settles O48: each pseudo-command is accepted when its expansion is, and both expand to the same lines. -/
theorem pseudoCommandsExpand : Obligations.PseudoCommandsExpand := by
  intro c x y z pre rest
  refine ⟨?_, ?_, ?_⟩
  · exact assemble_replace (ls := [.trimClr]) (ms := [.trimWr 0 0 0]) rfl rfl pre rest
  · refine assemble_replace (ls := [.calStep x y z]) (ms := [.sampleWr x y z, .calTick]) ?_ rfl pre rest
    simp [AsmLine.wf]
  · refine assemble_replace (ls := [.calRun x y z]) (ms := .calStart :: List.replicate c.n (.calStep x y z)) ?_ ?_ pre
      rest
    · simp [all_wf_replicate c.n_pos, AsmLine.wf]
    · simp [expand, List.flatMap_replicate]

end

section
/-!
The fields of a frame (40_sbus_unpack.md R102): the byte form of a field, its place in the frame, and the bytes that
the fields of a variant read.
-/

namespace Sys2Proof.Machine

/-- A bit of a byte of the window that stands `a` bits up, when the window is shifted down by `s`. -/
theorem testBit_byte_shiftLeft (y : Byte) {a s : Nat} (hs : s ≤ a) (j : Nat) :
    (y.toNat <<< (a - s)).testBit j = (decide (a ≤ s + j) && y.getLsbD (s + j - a)) := by
  rw [Nat.testBit_shiftLeft, BitVec.testBit_toNat, show j - (a - s) = s + j - a by omega,
    decide_eq_decide.2 (show j ≥ a - s ↔ a ≤ s + j by omega)]

/-- Which byte of the window of R102 gives bit `j` of the window shifted down by `s`. The third byte is needed only
from `s = 6` on. -/
theorem testBit_byteWindow (x y z : Byte) {s j : Nat} (hs : s < 8) (hj : j < 11) :
    (x.toNat >>> s ||| y.toNat <<< (8 - s) ||| (if 6 ≤ s then z.toNat <<< (16 - s) else 0)).testBit j
      = if s + j < 8 then x.getLsbD (s + j)
        else if s + j < 16 then y.getLsbD (s + j - 8)
        else z.getLsbD (s + j - 16) := by
  have hsecond := testBit_byte_shiftLeft y hs.le j
  have hthird : (if 6 ≤ s then z.toNat <<< (16 - s) else 0).testBit j
      = (decide (16 ≤ s + j) && z.getLsbD (s + j - 16)) := by
    split
    · exact testBit_byte_shiftLeft z (by omega) j
    · simp [show ¬16 ≤ s + j by omega]
  rw [Nat.testBit_or, Nat.testBit_or, Nat.testBit_shiftRight, BitVec.testBit_toNat, hsecond, hthird]
  split
  case isTrue h => simp [show ¬8 ≤ s + j by omega, show ¬16 ≤ s + j by omega]
  case isFalse h =>
    rw [x.getLsbD_of_ge (s + j) (by omega)]
    split
    case isTrue h' => simp [show 8 ≤ s + j by omega, show ¬16 ≤ s + j by omega]
    case isFalse h' =>
      rw [y.getLsbD_of_ge (s + j - 8) (by omega)]
      simp [show 16 ≤ s + j by omega]

/-- "The two forms are equal" (R102). -/
theorem toNat_field {m : Nat} (f : Vector Byte m) (k : Nat) :
    (field f k).toNat
      = ((frameByte f (11 * k / 8)).toNat >>> (11 * k % 8)
          ||| (frameByte f (11 * k / 8 + 1)).toNat <<< (8 - 11 * k % 8)
          ||| (if 6 ≤ 11 * k % 8 then (frameByte f (11 * k / 8 + 2)).toNat <<< (16 - 11 * k % 8) else 0)) &&& 0x7FF := by
  refine Nat.eq_of_testBit_eq fun j => ?_
  rw [Nat.testBit_and, show (0x7FF : Nat) = 2 ^ 11 - 1 from rfl, Nat.testBit_two_pow_sub_one, BitVec.testBit_toNat,
    getLsbD_field, Bool.and_comm]
  by_cases hj : j < 11
  · rw [testBit_byteWindow _ _ _ (Nat.mod_lt _ (by decide)) hj]
    congr 1
    have hpos : 11 * k + j = 8 * (11 * k / 8) + (11 * k % 8 + j) := by omega
    have hs : 11 * k % 8 < 8 := Nat.mod_lt _ (by decide)
    generalize 11 * k / 8 = b, 11 * k % 8 = s at hpos hs ⊢
    rw [hpos, Nat.mul_add_div (by decide), Nat.mul_add_mod]
    split
    case isTrue h => rw [Nat.div_eq_of_lt h, Nat.mod_eq_of_lt h, Nat.add_zero]
    case isFalse h =>
      split
      case isTrue h' => rw [show (s + j) / 8 = 1 by omega, show (s + j) % 8 = s + j - 8 by omega]
      case isFalse h' => rw [show (s + j) / 8 = 2 by omega, show (s + j) % 8 = s + j - 16 by omega]
  · simp [hj]

/-- The table of R102: the byte, the shift and the number of bytes of a field, by its place `r` in a group of eight. -/
theorem field_place (q r : Nat) (hr : r < 8) :
    11 * (8 * q + r) / 8 = 11 * q + [0, 1, 2, 4, 5, 6, 8, 9].getD r 0
      ∧ 11 * (8 * q + r) % 8 = [0, 3, 6, 1, 4, 7, 2, 5].getD r 0
      ∧ (11 * (8 * q + r) + 10) / 8 + 1 - 11 * (8 * q + r) / 8 = [2, 2, 3, 2, 2, 3, 2, 2].getD r 0 := by
  interval_cases r <;> simp <;> omega

/-- Every bit of the fields of a variant lies below its flags byte. -/
theorem fieldBit_lt_flagsAt {n k j : Nat} (hn : n = 8 ∨ n = 16 ∨ n = 24) (hk : k < n) (hj : j < 11) :
    (11 * k + j) / 8 < flagsAt n := by
  unfold flagsAt
  omega

/-- "No field takes a bit of byte `L` or above" (R102). -/
theorem field_congr {m n k : Nat} {f g : Vector Byte m} (hn : n = 8 ∨ n = 16 ∨ n = 24) (hk : k < n)
    (h : ∀ i < flagsAt n, frameByte f i = frameByte g i) : field f k = field g k := by
  refine BitVec.eq_of_getLsbD_eq fun j hj => ?_
  rw [getLsbD_field, getLsbD_field, h _ (fieldBit_lt_flagsAt hn hk hj)]

end Sys2Proof.Machine

open Sys2Proof Sys2Proof.Machine

/-- Settles O13: the bits of a field, its byte form, its place, and the bytes that it reads. -/
theorem fieldFormsAgree : Obligations.FieldFormsAgree := by
  refine ⟨fun m f k => ⟨fun j hj => ?_, toNat_field f k⟩, field_place, fun m f g n k => field_congr, ?_⟩
  · rw [getLsbD_field, decide_eq_true hj, Bool.true_and]
    rfl
  · rintro n (rfl | rfl | rfl) <;> decide

end

section
/-!
The DEC commands (40_sbus_unpack.md R104 to R111): each is the decode operation on the frame it takes, so what is known
of the operation holds of the three of them.
-/

namespace Sys2Proof.Machine

open Claims

/-! ### The flags byte and its status -/

/-- The status in the numbers of R109. -/
theorem statusOf_eq_statusWord (F : Byte) : statusOf F = StatusWord F := rfl

/-- What sets each bit of the status (R109), and the three status words: failsafe goes before signal loss (R108). -/
theorem statusOf_bits (F : Byte) :
    (statusOf F).getLsbD 0 = true
      ∧ (statusOf F).getLsbD 1 = F.getLsbD 3
      ∧ (statusOf F).getLsbD 2 = false
      ∧ (statusOf F).getLsbD 3 = (!F.getLsbD 3 && F.getLsbD 2)
      ∧ (statusOf F = 0x1 ∨ statusOf F = 0x3 ∨ statusOf F = 0x9) := by
  rw [statusOf_eq_statusWord, StatusWord]
  cases F.getLsbD 3 <;> cases F.getLsbD 2 <;> decide

theorem getLsbD_of_low_nibble {F G : Byte} (h : F &&& 0x0F = G &&& 0x0F) {j : Nat} (hj : j < 4) :
    F.getLsbD j = G.getLsbD j := by
  have hbit := congrArg (·.getLsbD j) h
  have hmask : (0x0F : Byte).getLsbD j = true := by
    interval_cases j <;> rfl
  simpa only [BitVec.getLsbD_and, hmask, Bool.and_true] using hbit

/-- R101: bits 7:4 of the flags byte reach neither a digital channel nor the status. -/
theorem flags_of_low_nibble {F G : Byte} (h : F &&& 0x0F = G &&& 0x0F) :
    digA F = digA G ∧ digB F = digB G ∧ statusOf F = statusOf G := by
  refine ⟨getLsbD_of_low_nibble h (by decide), getLsbD_of_low_nibble h (by decide), ?_⟩
  rw [statusOf_eq_statusWord, statusOf_eq_statusWord, StatusWord, StatusWord,
    getLsbD_of_low_nibble h (j := 3) (by decide), getLsbD_of_low_nibble h (j := 2) (by decide)]

/-! ### The decode operation -/

section
variable {m n : Nat} {f g : Vector Byte m} {ch ch' : Vector Half 26} {k : Fin 26}

theorem channels_ext (h : ∀ k : Fin 26, ch[k] = ch'[k]) : ch = ch' :=
  Vector.ext fun k hk => h ⟨k, hk⟩

/-- Bit by bit, a field as a slot holds it: 11 bits of the frame with zero above (R102, R104). -/
theorem getLsbD_zext16_field (f : Vector Byte m) (k : Nat) {j : Nat} (hj : j < 16) :
    (zext16 (field f k)).getLsbD j = (decide (j < 11) && FrameBit f (11 * k + j)) := by
  rw [zext16, BitVec.getLsbD_setWidth, decide_eq_true hj, Bool.true_and, getLsbD_field]
  rfl

/-- R111: a slot that a decode writes does not depend on what CH held. -/
theorem channelsAfter_written (h : k.val ≤ n + 1) : (channelsAfter n f ch)[k] = (channelsAfter n f ch')[k] := by
  obtain hfield | hA | hB : k.val < n ∨ k.val = n ∨ k.val = n + 1 := by omega
  · rw [channelsAfter_field _ _ _ _ hfield, channelsAfter_field _ _ _ _ hfield]
  · rw [channelsAfter_digA _ _ _ _ hA, channelsAfter_digA _ _ _ _ hA]
  · rw [channelsAfter_digB _ _ _ _ hB, channelsAfter_digB _ _ _ _ hB]

/-- R111: "decoding the same frame twice gives the same CH". -/
theorem channelsAfter_idem : channelsAfter n f (channelsAfter n f ch) = channelsAfter n f ch := by
  refine channels_ext fun k => ?_
  obtain hwritten | hkept := le_or_gt k.val (n + 1)
  · exact channelsAfter_written hwritten
  · exact channelsAfter_kept _ _ _ _ hkept

/-- R101, R104: the decode operation reads the bytes below the flags byte and the low nibble of the flags byte. -/
theorem decodeFrame_congr (hn : n = 8 ∨ n = 16 ∨ n = 24) (hm : flagsAt n < m)
    (hfields : ∀ i (h : i < flagsAt n), f[i] = g[i]) (hflags : f[flagsAt n] &&& 0x0F = g[flagsAt n] &&& 0x0F) :
    decodeFrame n f = decodeFrame n g := by
  have hfields (i : Nat) (h : i < flagsAt n) : frameByte f i = frameByte g i := by
    rw [frameByte_of_lt f (h.trans hm), frameByte_of_lt g (h.trans hm), hfields i h]
  rw [← frameByte_of_lt f hm, ← frameByte_of_lt g hm] at hflags
  obtain ⟨hdigA, hdigB, hstatus⟩ := flags_of_low_nibble hflags
  have hch (ch : Vector Half 26) : channelsAfter n f ch = channelsAfter n g ch := by
    refine channels_ext fun k => ?_
    obtain hk | hA | hB | hkept : k.val < n ∨ k.val = n ∨ k.val = n + 1 ∨ n + 1 < k.val := by omega
    · rw [channelsAfter_field _ _ _ _ hk, channelsAfter_field _ _ _ _ hk, field_congr hn hk hfields]
    · rw [channelsAfter_digA _ _ _ _ hA, channelsAfter_digA _ _ _ _ hA, hdigA]
    · rw [channelsAfter_digB _ _ _ _ hB, channelsAfter_digB _ _ _ _ hB, hdigB]
    · rw [channelsAfter_kept _ _ _ _ hkept, channelsAfter_kept _ _ _ _ hkept]
  funext r
  exact Prod.ext (by rw [decodeFrame_regs, decodeFrame_regs, hch]) (by rw [decodeFrame_resp, decodeFrame_resp, hstatus])

end

/-! ### The three commands -/

section
variable {m n : Nat} {f : Vector Byte m} {i : Instr} {s t : State}

/-- A DEC command is the decode operation on its own frame. -/
theorem effect_of_isDec (h : IsDec n i) :
    ∃ (m : Nat) (f : Vector Byte m), (∀ c, effect c i = decodeFrame n f) ∧ FlagsByte i = frameByte f (flagsAt n) := by
  obtain ⟨f, rfl, rfl⟩ | ⟨f, rfl, rfl⟩ | ⟨f, rfl, rfl⟩ := h
  all_goals exact ⟨_, f, fun _ => rfl, (frameByte_of_lt f (by decide)).symm⟩

/-- The response of a DEC command (R104): its status and nothing else but `valid`. -/
theorem respond_of_isDec (h : IsDec n i) (s : State) : respond i s = statusResponse (statusOf (FlagsByte i)) := by
  obtain ⟨m, f, heffect, hflags⟩ := effect_of_isDec h
  rw [respond, heffect, decodeFrame_resp, hflags]
  rfl

/-- The registers after a DEC command (R104). -/
theorem exec_isDec_regs (h : IsDec n i) :
    ∃ (m : Nat) (f : Vector Byte m), ∀ s t, exec i s = .next t →
      t.regs = { s.regs with ch := channelsAfter n f s.regs.ch } := by
  obtain ⟨m, f, heffect, -⟩ := effect_of_isDec h
  refine ⟨m, f, fun s t hexec => ?_⟩
  rw [(exec_eq_next.1 hexec).1, heffect, decodeFrame_regs]

/-- The decode operation has the effect that R104 states. -/
theorem exec_decodeEffect (heffect : effect chip i = decodeFrame n f) (s : State) :
    ∃ t, exec i s = .next t ∧ DecodeEffect n f s t (respond i s) := by
  refine ⟨⟨(decodeFrame n f s.regs).1, s.input⟩, by rw [exec_eq_next, heffect]; exact ⟨rfl, rfl⟩, fun k hk j hj => ?_,
    fun k hk => ?_, fun k hk => ?_, fun k hk => ?_, ?_, ?_, rfl⟩
  · rw [decodeFrame_ch, channelsAfter_field _ _ _ _ hk, getLsbD_zext16_field f k hj]
  · rw [decodeFrame_ch, channelsAfter_digA _ _ _ _ hk]
    rfl
  · rw [decodeFrame_ch, channelsAfter_digB _ _ _ _ hk]
    rfl
  · rw [decodeFrame_ch, channelsAfter_kept _ _ _ _ hk]
  · simp [SameCalibration]
  · rw [respond, heffect, decodeFrame_resp]
    rfl

/-- Commands of the same effect are answered alike. -/
theorem exec_congr {j : Instr} (heffect : effect chip i = effect chip j) (s : State) :
    exec i s = exec j s ∧ respond i s = respond j s := by
  rw [exec_eq_commit, exec_eq_commit, respond, respond, heffect]
  exact ⟨rfl, rfl⟩

/-- Every value of the flags byte is that of some DEC command of each variant. -/
theorem exists_isDec_flagsByte (hn : n = 8 ∨ n = 16 ∨ n = 24) (F : Byte) : ∃ i, IsDec n i ∧ FlagsByte i = F := by
  obtain rfl | rfl | rfl := hn
  · exact ⟨.dec8 (Vector.replicate 12 F), .inl ⟨_, rfl, rfl⟩, Vector.getElem_replicate _⟩
  · exact ⟨.dec16 (Vector.replicate 23 F), .inr (.inl ⟨_, rfl, rfl⟩), Vector.getElem_replicate _⟩
  · exact ⟨.dec24 (Vector.replicate 34 F), .inr (.inr ⟨_, rfl, rfl⟩), Vector.getElem_replicate _⟩

/-- A status of R109 is that of some flags byte. -/
theorem exists_statusOf {w : BitVec 4} (hw : w = 0x1 ∨ w = 0x3 ∨ w = 0x9) : ∃ F, statusOf F = w := by
  obtain rfl | rfl | rfl := hw
  · exact ⟨0x00, rfl⟩
  · exact ⟨0x08, rfl⟩
  · exact ⟨0x04, rfl⟩

/-- A tick returns status 0 (60_exceptions.md R184). -/
theorem calTick_status (c : Config) (r : Regs) : (calTick c r).2.status = 0 := by
  by_cases hidle : r.calCnt = 0
  · rw [calTick_idle c r hidle, Response.ok_status]
  · rw [calTick_active c r hidle]
    rfl

/-- "Every non-DEC command returns `resp.status = 0`" (R109). -/
theorem respond_status_of_not_isDec (h : ∀ n, ¬IsDec n i) (s : State) : (respond i s).status = 0 := by
  cases i
  case dec8 f => exact absurd (.inl ⟨f, rfl, rfl⟩) (h 8)
  case dec16 f => exact absurd (.inr (.inl ⟨f, rfl, rfl⟩)) (h 16)
  case dec24 f => exact absurd (.inr (.inr ⟨f, rfl, rfl⟩)) (h 24)
  case calTick => exact calTick_status chip s.regs
  all_goals rfl

end

end Sys2Proof.Machine

open Sys2Proof Sys2Proof.Machine

/-- Settles O12: each of the three commands is the decode operation of its field count. -/
theorem decodeWritesChannelsAndStatus : Obligations.DecodeWritesChannelsAndStatus :=
  ⟨fun _ => exec_decodeEffect rfl, fun _ => exec_decodeEffect rfl, fun _ => exec_decodeEffect rfl⟩

/-- Settles O14: the status is read off the flags byte, and every flags byte is that of some frame. -/
theorem statusBitsFollowFlags : Obligations.StatusBitsFollowFlags := by
  refine ⟨fun i n s hdec => ?_, fun n s hn w hw => ?_, fun i s hother => respond_status_of_not_isDec hother s⟩
  · rw [respond_of_isDec hdec]
    exact statusOf_bits (Claims.FlagsByte i)
  · obtain ⟨F, rfl⟩ := exists_statusOf hw
    obtain ⟨i, hdec, rfl⟩ := exists_isDec_flagsByte hn F
    obtain ⟨t, ht⟩ := exec_completes i s
    exact ⟨i, t, hdec, ht, by rw [respond_of_isDec hdec]; rfl⟩

/-- Settles O15: such frames are the same to the decode operation. -/
theorem reservedFlagBitsIgnored : Obligations.ReservedFlagBitsIgnored := by
  refine ⟨fun f g s hfields hflags => exec_congr ?_ s, fun f g s hfields hflags => exec_congr ?_ s,
    fun f g s hfields hflags => exec_congr ?_ s⟩ <;> funext r
  · rw [effect_dec8, effect_dec8, decodeFrame_congr (.inl rfl) (by decide) hfields hflags]
  · rw [effect_dec16, effect_dec16, decodeFrame_congr (.inr (.inl rfl)) (by decide) hfields hflags]
  · rw [effect_dec24, effect_dec24, decodeFrame_congr (.inr (.inr rfl)) (by decide) hfields hflags]

/-- Settles O16: the slots up to `n + 1` come from the frame, and those above are kept. -/
theorem decodeIsIdempotentOnWrittenSlots : Obligations.DecodeIsIdempotentOnWrittenSlots := by
  refine ⟨fun n i s s' t t' hdec ht ht' => ?_, fun n i s t u hdec ht hu => ?_,
    fun n m i j s t u hi hj _ ht hu k hk _ => ?_⟩
  · obtain ⟨_, f, hregs⟩ := exec_isDec_regs hdec
    refine ⟨fun k hk => ?_, by rw [respond_of_isDec hdec, respond_of_isDec hdec]⟩
    rw [hregs s t ht, hregs s' t' ht']
    exact channelsAfter_written hk
  · obtain ⟨_, f, hregs⟩ := exec_isDec_regs hdec
    refine ⟨?_, by rw [respond_of_isDec hdec, respond_of_isDec hdec]⟩
    rw [hregs t u hu, hregs s t ht, channelsAfter_idem]
  · obtain ⟨_, f, hregs⟩ := exec_isDec_regs hj
    rw [hregs t u hu]
    exact channelsAfter_kept _ _ _ _ hk

end

section
/-!
The rounding of the commit (41_calibration.md R143): `DIV` in the two modes, and the average built on it.
-/

namespace Sys2Proof

/-! ### `h` and `CAL_N` as integers -/

section
variable (c : Config)

theorem Config.natCast_n_pos : 0 < (c.n : Int) := Int.natCast_pos.2 c.n_pos

theorem Config.half_lt_n : c.half < c.n := Nat.div_lt_self c.n_pos (by decide)

variable {c} in
theorem Config.two_mul_half (heven : c.n % 2 = 0) : 2 * c.half = c.n :=
  Nat.mul_div_cancel' (Nat.dvd_of_mod_eq_zero heven)

end

end Sys2Proof

namespace Sys2Proof.Machine

open Claims

/-! ### DIV -/

section
variable {a b : Int} (hb : 0 < b)
include hb

/-- DIV is the rounded quotient in the words of the statements (00_scope.md R9). -/
theorem div_eq_roundedQuotient (m : DivMode) : div m a b = RoundedQuotient m a b := by
  cases m with
  | floor => exact div_floor hb
  | trunc =>
    by_cases ha : 0 ≤ a
    · exact (div_trunc_of_nonneg ha).trans (if_pos ha).symm
    · exact (div_trunc_of_neg (not_le.1 ha)).trans (if_neg ha).symm

/-- From 0 up the two modes agree. -/
theorem div_of_nonneg (m : DivMode) (ha : 0 ≤ a) : div m a b = a / b := by
  cases m with
  | floor => exact div_floor hb
  | trunc => exact div_trunc_of_nonneg ha

/-- Below 0 rounding toward zero gives one more than rounding down, unless nothing is rounded. -/
theorem div_trunc_of_neg_of_not_dvd (ha : a < 0) (hdvd : ¬b ∣ a) : div .trunc a b = a / b + 1 := by
  rw [div, Int.tdiv_eq_ediv, if_neg (not_or.2 ⟨not_le.2 ha, hdvd⟩), Int.sign_eq_one_of_pos hb]

/-- Neither mode rounds out of a range up to a bound that is not negative: TRUNC rounds down, or to one more, which is
then at most 0. -/
theorem div_bounds (m : DivMode) {lo hi : Int} (hhi : 0 ≤ hi) (hlow : lo * b ≤ a) (hhigh : a < (hi + 1) * b) :
    lo ≤ div m a b ∧ div m a b ≤ hi := by
  have hfloor_low : lo ≤ a / b := (Int.le_ediv_iff_mul_le hb).2 hlow
  have hfloor_high : a / b < hi + 1 := (Int.ediv_lt_iff_lt_mul hb).2 hhigh
  cases m with
  | floor =>
    rw [div_floor hb]
    omega
  | trunc =>
    rw [div, Int.tdiv_eq_ediv, Int.sign_eq_one_of_pos hb]
    split
    case isTrue => omega
    case isFalse hrounded =>
      have hneg := Int.ediv_neg_of_neg_of_pos (not_le.1 (not_or.1 hrounded).1) hb
      omega

end

/-! ### The average -/

section
variable {c : Config} {sum : Int}

/-- From `-h` up both modes round the shifted sum down. -/
theorem average_of_neg_half_le (h : -(c.half : Int) ≤ sum) : average c sum = (sum + c.half) / c.n :=
  div_of_nonneg c.natCast_n_pos c.divMode (by omega)

theorem average_floor (hmode : c.divMode = .floor) (sum : Int) : average c sum = (sum + c.half) / c.n := by
  rw [average, hmode, div_floor c.natCast_n_pos]

theorem average_trunc_of_lt_neg_half (hmode : c.divMode = .trunc) (h : sum < -(c.half : Int))
    (hdvd : ¬(c.n : Int) ∣ sum + c.half) : average c sum = (sum + c.half) / c.n + 1 := by
  rw [average, hmode, div_trunc_of_neg_of_not_dvd c.natCast_n_pos (by omega) hdvd]

/-- For even `CAL_N` the shifted sum rounded down is the mean rounded to nearest, halves up: the mean is at least half
below it and less than half above it. -/
theorem shifted_quotient_nearest (heven : c.n % 2 = 0) (sum : Int) :
    (2 * ((sum + c.half) / c.n) - 1) * c.n ≤ 2 * sum ∧ 2 * sum < (2 * ((sum + c.half) / c.n) + 1) * c.n := by
  have hhalf : 2 * (c.half : Int) = c.n := mod_cast Config.two_mul_half heven
  have hlow := Int.ediv_mul_le (sum + c.half) c.natCast_n_pos.ne'
  have hhigh := Int.lt_ediv_add_one_mul_self (sum + c.half) c.natCast_n_pos
  constructor <;> linarith

/-- The shift by `h` does not reach the next multiple of `CAL_N`. -/
theorem shifted_multiple_quotient (c : Config) (m : Int) : (m * c.n + c.half) / c.n = m := by
  have hhalf : (c.half : Int) / c.n = 0 := Int.ediv_eq_zero_of_lt (Int.natCast_nonneg _) (mod_cast c.half_lt_n)
  rw [Int.mul_add_ediv_right _ _ c.natCast_n_pos.ne', hhalf, Int.add_zero]

/-- An integer mean from 0 up is committed as it is, in both modes. -/
theorem average_of_nonneg_mean {m : Int} (hm : 0 ≤ m) : average c (m * c.n) = m := by
  have hsum := Int.mul_nonneg hm (Int.natCast_nonneg c.n)
  rw [average_of_neg_half_le (by omega), shifted_multiple_quotient]

/-- An integer mean below 0, for even `CAL_N`: TRUNC commits one more (R143). -/
theorem average_trunc_of_neg_mean (hmode : c.divMode = .trunc) (heven : c.n % 2 = 0) {m : Int} (hm : m < 0) :
    average c (m * c.n) = m + 1 := by
  have hhalf := Config.two_mul_half heven
  have hhalf_lt := c.half_lt_n
  have hbelow : m * c.n ≤ -1 * c.n := Int.mul_le_mul_of_nonneg_right (by omega) (Int.natCast_nonneg _)
  have hdvd : ¬(c.n : Int) ∣ m * c.n + c.half := by
    rw [Int.dvd_add_right (Int.dvd_mul_left m c.n), Int.natCast_dvd_natCast]
    exact Nat.not_dvd_of_pos_of_lt (by omega) hhalf_lt
  rw [average_trunc_of_lt_neg_half hmode (by omega) hdvd, shifted_multiple_quotient]

/-- The average of sums within `CAL_N` least and greatest samples fits 16 bits, in both modes (R142). -/
theorem average_bounds (hlow : -32768 * (c.n : Int) ≤ sum) (hhigh : sum ≤ 32767 * c.n) :
    -32768 ≤ average c sum ∧ average c sum ≤ 32767 := by
  have hhalf := c.half_lt_n
  exact div_bounds c.natCast_n_pos c.divMode (by decide) (by omega) (by omega)

end

end Sys2Proof.Machine

open Sys2Proof Sys2Proof.Machine

/-- Settles O20: each mode against the quotient rounded down, and the table by evaluation at `CAL_N = 400`. -/
theorem roundingLaw : Obligations.RoundingLaw := by
  refine ⟨fun c sum h => ?_, fun c sum hmode => average_floor hmode sum,
    fun c sum hmode h hdvd => average_trunc_of_lt_neg_half hmode h hdvd, fun c m heven hm => ?_, fun c hN => ?_⟩
  · rw [average_of_neg_half_le h]
    exact ⟨rfl, fun heven => shifted_quotient_nearest heven sum⟩
  · cases hmode : c.divMode with
    | trunc => exact average_trunc_of_neg_mean hmode heven hm
    | floor => rw [average_floor hmode, shifted_multiple_quotient]
  · have hn : c.n = 400 := by rw [Config.n, hN]; rfl
    have hhalf : c.half = 200 := by rw [Config.half, hn]
    simp only [List.map_cons, List.map_nil, average, hn, hhalf]
    cases c.divMode <;> decide

end

section
/-!
CAL_START and CAL_TICK (41_calibration.md R130 to R139) in every state: what a tick writes in each lane, and what that
makes of one tick.
-/

namespace Sys2Proof.Machine

open Claims

section
variable {c : Config} {r r' : Regs}

/-! ### What a tick writes -/

/-- The sum of a tick is the one that the statements speak of (R133, R134). -/
theorem tickSum_eq_claims_tickSum (c : Config) (r : Regs) (a : Axis) : tickSum c r a = TickSum c r a := by
  simp [tickSum, TickSum, inPhase]

theorem calTick_calAcc_lane (hcnt : r.calCnt ≠ 0) (a : Axis) :
    (calTick c r).1.calAcc.lane a = accumulatorOf (tickSum c r a) := by
  rw [calTick_active c r hcnt, activeTick_calAcc]

/-- R135: a tick zeroes SAMPLE. -/
theorem calTick_sample_lane (hcnt : r.calCnt ≠ 0) (a : Axis) : (calTick c r).1.sample.lane a = 0 := by
  rw [calTick_active c r hcnt, activeTick_sample, Axes.lane_zero]

/-- No tick writes CH. -/
theorem calTick_ch (c : Config) (r : Regs) : (calTick c r).1.ch = r.ch := by
  unfold calTick
  split <;> rfl

/-- No tick writes ACC_1G. -/
theorem calTick_acc1g (c : Config) (r : Regs) : (calTick c r).1.acc1g = r.acc1g := by
  unfold calTick
  split <;> rfl

/-- R135: a tick before the final one zeroes TRIM. -/
theorem calTick_trim_lane_blank (hcnt : r.calCnt ≠ 0) (hnot : r.calCnt ≠ 1) (a : Axis) :
    (calTick c r).1.trim.lane a = 0 := by
  rw [calTick_active c r hcnt, (activeTick_not_final c r hnot).1, Axes.lane_zero]

theorem calCnt_ne_zero_of_final (hfinal : r.calCnt = 1) : r.calCnt ≠ 0 := by simp [hfinal]

/-- The commit of a lane at the final tick (R136). -/
theorem calTick_trim_lane_commit (hfinal : r.calCnt = 1) (a : Axis) :
    (calTick c r).1.trim.lane a = wrap16 (average c (tickSum c r a) - Offset r a) := by
  rw [calTick_active c r (calCnt_ne_zero_of_final hfinal), (activeTick_final c r hfinal).1]
  cases a <;> simp [commitTrim, Axes.lane, Offset]

/-- R137: the final tick asks for a save, no other does. -/
theorem calTick_resp (c : Config) (r : Regs) :
    (calTick c r).2 = { Response.ok with save := decide (r.calCnt = 1) } := by
  by_cases hcnt : r.calCnt = 0
  · rw [calTick_idle c r hcnt, hcnt]
    rfl
  · rw [calTick_active c r hcnt]
    by_cases hfinal : r.calCnt = 1
    · rw [(activeTick_final c r hfinal).2.2, decide_eq_true hfinal]
    · rw [(activeTick_not_final c r hfinal).2.2, decide_eq_false hfinal]
      rfl

/-- The commit in the words of the statements. -/
theorem wrap16_average_eq_claims (c : Config) (sum offset : Int) :
    wrap16 (average c sum - offset)
      = BitVec.ofInt 16 (RoundedQuotient c.divMode (sum + ((c.calN.toNat / 2 : Nat) : Int)) c.calN.toNat - offset) := by
  rw [wrap16, average, div_eq_roundedQuotient c.natCast_n_pos]
  rfl

/-- CAL_TICK is R131, for every instance and in every state. -/
theorem calTick_tickEffect (c : Config) (r : Regs) : TickEffect c r (calTick c r).1 (calTick c r).2 := by
  refine ⟨fun hidle => ?_, fun hcnt => ⟨?_, fun a hlow hhigh => ?_, calTick_sample_lane hcnt, calTick_ch c r,
    calTick_acc1g c r, fun hnot => ⟨calTick_trim_lane_blank hcnt hnot, ?_, ?_⟩, fun hfinal => ⟨fun a _ _ => ?_, ?_, ?_⟩⟩⟩
  · rw [calTick_idle c r hidle]
    exact ⟨rfl, rfl⟩
  · have hdown := calTick_calCnt_toNat c r
    bv_omega
  · rw [calTick_calAcc_lane hcnt, tickSum_eq_claims_tickSum]
    exact toInt_accumulatorOf (by omega)
  · rw [calTick_calDone, decide_eq_false hnot, Bool.or_false]
  · rw [calTick_resp, decide_eq_false hnot]
    rfl
  · rw [calTick_trim_lane_commit hfinal, tickSum_eq_claims_tickSum, wrap16_average_eq_claims]
  · rw [calTick_calDone, decide_eq_true hfinal, Bool.or_true]
  · rw [calTick_resp, decide_eq_true hfinal]
    rfl

/-! ### Where the sums fit -/

/-- The ticks done, this one included (R134). -/
theorem ticksDone_add_one (hcnt : r.calCnt ≠ 0) : ticksDone c r + 1 = c.n - (calTick c r).1.calCnt.toNat := by
  rw [calTick_calCnt_toNat, ticksDone]
  bv_omega

/-- The accumulators hold the sums themselves (R142). -/
theorem toInt_calTick_calAcc_lane (h : r.Inv c) (hcnt : r.calCnt ≠ 0) (a : Axis) :
    ((calTick c r).1.calAcc.lane a).toInt = tickSum c r a := by
  rw [calTick_calAcc_lane hcnt, toInt_accumulatorOf_tickSum h hcnt]

/-- The final tick averages the sum of `CAL_N` samples, and that average fits 16 bits (R142). -/
theorem average_tickSum_bounds (h : r.Inv c) (hfinal : r.calCnt = 1) (a : Axis) :
    -32768 ≤ average c (tickSum c r a) ∧ average c (tickSum c r a) ≤ 32767 := by
  have hticks : ticksDone c r + 1 = c.n := by simp [ticksDone, hfinal]
  obtain ⟨hlow, hhigh⟩ := tickSum_bounds h a
  rw [hticks] at hlow hhigh
  exact average_bounds hlow hhigh

/-- So `wrap_16` changes no commit of a lane without an offset. -/
theorem toInt_calTick_trim_lane (h : r.Inv c) (hfinal : r.calCnt = 1) {a : Axis} (hoffset : Offset r a = 0) :
    ((calTick c r).1.trim.lane a).toInt = average c (tickSum c r a) := by
  rw [calTick_trim_lane_commit hfinal, hoffset, Int.sub_zero, wrap16]
  exact toInt_ofInt_of_s16 (average_tickSum_bounds h hfinal a)

/-! ### The first tick of a run -/

/-- R133: the first tick discards whatever the accumulators held. -/
theorem toInt_calTick_calAcc_lane_first (hfirst : r.calCnt = c.calN) (a : Axis) :
    ((calTick c r).1.calAcc.lane a).toInt = (r.sample.lane a).toInt := by
  have hlow := BitVec.le_toInt (r.sample.lane a)
  have hhigh := BitVec.toInt_lt (x := r.sample.lane a)
  rw [calTick_calAcc_lane (hfirst ▸ c.calN_ne_zero), tickSum_first hfirst]
  exact toInt_accumulatorOf (by omega)

/-- The average of a single value is that value. -/
theorem average_of_calN_one (hone : c.calN = 1) (sum : Int) : average c sum = sum := by
  have hn : c.n = 1 := by rw [Config.n, hone]; rfl
  have hhalf : c.half = 0 := by rw [Config.half, hn]
  rw [average, div_eq_roundedQuotient c.natCast_n_pos, hn, hhalf]
  cases c.divMode <;> simp [RoundedQuotient]

/-- R139: with `CAL_N = 1` the tick commits the sample, less the offset of its lane. -/
theorem calTick_trim_lane_of_calN_one (hone : c.calN = 1) (hfinal : r.calCnt = 1) (a : Axis) :
    (calTick c r).1.trim.lane a = BitVec.ofInt 16 ((r.sample.lane a).toInt - Offset r a) := by
  rw [calTick_trim_lane_commit hfinal, average_of_calN_one hone, tickSum_first (hfinal.trans hone.symm), wrap16]

/-- A lane without an offset takes the sample itself. -/
theorem calTick_trim_lane_eq_sample (hone : c.calN = 1) (hfinal : r.calCnt = 1) {a : Axis} (hoffset : Offset r a = 0) :
    (calTick c r).1.trim.lane a = r.sample.lane a := by
  rw [calTick_trim_lane_of_calN_one hone hfinal, hoffset, Int.sub_zero, BitVec.ofInt_toInt]

/-! ### Lanes -/

/-- A lane's sum reads its own lane alone. -/
theorem tickSum_congr {a : Axis} (hcnt : r.calCnt = r'.calCnt) (hacc : r.calAcc.lane a = r'.calAcc.lane a)
    (hsample : r.sample.lane a = r'.sample.lane a) : tickSum c r a = tickSum c r' a := by
  simp only [tickSum_eq_claims_tickSum, TickSum, hcnt, hacc, hsample]

/-- Only lane Z has an offset, ACC_1G. -/
theorem offset_congr {a : Axis} (h : a = .z → r.acc1g = r'.acc1g) : Offset r a = Offset r' a := by
  cases a with
  | x => rfl
  | y => rfl
  | z => simp only [Offset, h rfl]

theorem calComplete_calStart (c : Config) (r : Regs) : calComplete (calStart c r).1 = false :=
  Bool.eq_false_of_not_eq_true fun h => c.calN_ne_zero (calComplete_iff.1 h)

end

end Sys2Proof.Machine

open Sys2Proof Sys2Proof.Machine

/-- Settles O18: the registers are those of `calStart`, whose counter `CAL_N` is not 0. -/
theorem calStartLoadsCount : Obligations.CalStartLoadsCount :=
  fun s => ⟨exec_eq_commit _ s, rfl, calComplete_calStart chip s.regs⟩

/-- Settles O19: the chip's CAL_TICK is `calTick`, which has the effect of R131 for every instance. -/
theorem calTickEffect : Obligations.CalTickEffect :=
  ⟨fun s => ⟨⟨(calTick chip s.regs).1, s.input⟩, exec_eq_commit _ s, calTick_tickEffect chip s.regs, rfl⟩,
    calTick_tickEffect⟩

/-- Settles O21: the invariant bounds the sums by the ticks done, of which there are `CAL_N` at the commit. -/
theorem calibrationNeverOverflows : Obligations.CalibrationNeverOverflows := by
  intro c r a hinv hcnt
  have hsum := toInt_calTick_calAcc_lane hinv hcnt a
  have hticks := ticksDone_add_one (c := c) hcnt
  have hbounds := tickSum_bounds hinv a
  have hn := c.n_le
  have hhalf : c.half ≤ 32767 := by
    unfold Config.half
    omega
  simp only [← tickSum_eq_claims_tickSum]
  refine ⟨hsum, ?_, by omega, by omega, fun hfinal => ?_⟩
  · rw [hsum, abs_le]
    omega
  · obtain ⟨hlow, hhigh⟩ := average_tickSum_bounds hinv hfinal a
    obtain ⟨hlowZ, hhighZ⟩ := average_tickSum_bounds hinv hfinal .z
    have hacc1g := r.acc1g.isLt
    exact ⟨hlow, hhigh, toInt_calTick_trim_lane hinv hfinal (a := .x) rfl,
      toInt_calTick_trim_lane hinv hfinal (a := .y) rfl, by omega, by omega⟩

/-- Settles O22: the one tick is the first, so its sum is the sample, and the final one, so it commits that sum. -/
theorem oneCycleRunCommitsSample : Obligations.OneCycleRunCommitsSample := by
  intro c r hone hfinal
  refine ⟨calTick_trim_lane_eq_sample hone hfinal (a := .x) rfl, calTick_trim_lane_eq_sample hone hfinal (a := .y) rfl,
    calTick_trim_lane_of_calN_one hone hfinal .z, toInt_calTick_calAcc_lane_first (hfinal.trans hone.symm), ?_, ?_⟩
  · rw [calTick_calDone, decide_eq_true hfinal, Bool.or_true]
  · rw [calTick_active c r (calCnt_ne_zero_of_final hfinal), activeTick_calCnt, hfinal]
    rfl

/-- Settles O23: CAL_START leaves the counter at `CAL_N`, so the tick after it is a first one. -/
theorem restartDiscardsPartialSum : Obligations.RestartDiscardsPartialSum := by
  intro s t u ht hu
  have htregs : t.regs = (calStart chip s.regs).1 := (exec_eq_next.1 ht).1
  have huregs : u.regs = (calTick chip t.regs).1 := (exec_eq_next.1 hu).1
  rw [huregs, htregs]
  refine ⟨rfl, rfl, toInt_calTick_calAcc_lane_first rfl, or_iff_not_imp_left.2 fun hmany => ?_⟩
  exact calTick_trim_lane_blank chip.calN_ne_zero hmany

/-- Settles O28: a lane after the tick is a function of its own sum, its own offset and the counter. -/
theorem lanesAreIndependent : Obligations.LanesAreIndependent := by
  intro c r r' a hcnt hacc hsample htrim hoffset
  by_cases hidle : r.calCnt = 0
  · rw [calTick_idle c r hidle, calTick_idle c r' (hcnt ▸ hidle)]
    exact ⟨hacc, hsample, htrim, hcnt⟩
  have hactive : r'.calCnt ≠ 0 := hcnt ▸ hidle
  have hsum : tickSum c r a = tickSum c r' a := tickSum_congr hcnt hacc hsample
  refine ⟨?_, ?_, ?_, ?_⟩
  · rw [calTick_calAcc_lane hidle, calTick_calAcc_lane hactive, hsum]
  · rw [calTick_sample_lane hidle, calTick_sample_lane hactive]
  · by_cases hfinal : r.calCnt = 1
    · rw [calTick_trim_lane_commit hfinal, calTick_trim_lane_commit (hcnt ▸ hfinal), hsum, offset_congr hoffset]
    · rw [calTick_trim_lane_blank hidle hfinal, calTick_trim_lane_blank hactive (hcnt ▸ hfinal)]
  · rw [calTick_active c r hidle, calTick_active c r' hactive, activeTick_calCnt, activeTick_calCnt, hcnt]

end

section
/-!
A whole run (41_calibration.md R134 to R138, R145): what holds after CAL_START and some steps, each a SAMPLE_WR and a
CAL_TICK. It holds before the first step, and every step while CAL_CNT is not 0 keeps it.
-/

namespace Sys2Proof.Machine

open Claims

/-! ### The samples of a run -/

@[simp] theorem laneSum_concat (a : Axis) (vs : List (Axes 16)) (v : Axes 16) :
    laneSum a (vs ++ [v]) = laneSum a vs + (v.lane a).toInt := by
  simp [laneSum]

@[simp] theorem laneSum_replicate (a : Axis) (k : Nat) (v : Axes 16) :
    laneSum a (List.replicate k v) = k * (v.lane a).toInt := by
  simp [laneSum]

/-- One step of a run (30_encoding.md R77): the registers after a SAMPLE_WR of `v` and a CAL_TICK. -/
def calStep (c : Config) (v : Axes 16) (r : Regs) : Regs := (calTick c { r with sample := v }).1

theorem stepSamples_concat (c : Config) (vs : List (Axes 16)) (v : Axes 16) (r : Regs) :
    stepSamples c (vs ++ [v]) r = calStep c v (stepSamples c vs r) := by
  induction vs generalizing r with
  | nil => rfl
  | cons _ _ ih => exact ih _

/-! ### The run's invariant -/

/-- The registers `r` after CAL_START and a step for each of `vs`, from `r₀`. -/
structure RunAfter (c : Config) (r₀ : Regs) (vs : List (Axes 16)) (r : Regs) : Prop where
  inv : r.Inv c
  count : r.calCnt.toNat + vs.length = c.n
  sums : vs ≠ [] → ∀ a, (r.calAcc.lane a).toInt = laneSum a vs
  ch : r.ch = r₀.ch
  acc1g : r.acc1g = r₀.acc1g
  sampleBlank : vs ≠ [] → ∀ a, r.sample.lane a = 0
  trimBlank : vs ≠ [] → r.calCnt ≠ 0 → ∀ a, r.trim.lane a = 0
  doneKept : r.calCnt ≠ 0 → r.calDone = r₀.calDone
  committed : r.calCnt = 0 → r.calDone = true
    ∧ ∀ a, r.trim.lane a = wrap16 (average c (laneSum a vs) - Offset r₀ a)

section
variable {c : Config} {r₀ r : Regs} {vs : List (Axes 16)}

/-- Before the first step. -/
theorem runAfter_calStart (c : Config) (r : Regs) : RunAfter c r [] (calStart c r).1 where
  inv := calStart_inv c r
  count := rfl
  sums h := absurd rfl h
  ch := rfl
  acc1g := rfl
  sampleBlank h := absurd rfl h
  trimBlank h := absurd rfl h
  doneKept _ := rfl
  committed h := absurd h c.calN_ne_zero

/-- A tick after the first adds to what the accumulators hold (R134). -/
theorem tickSum_later (h : r.calCnt ≠ c.calN) (a : Axis) :
    tickSum c r a = (r.calAcc.lane a).toInt + (r.sample.lane a).toInt := by
  rw [tickSum_eq_claims_tickSum, TickSum, if_neg h]

/-- A tick in progress ends the run when it is the final one. -/
theorem calTick_calCnt_eq_zero_iff (hcnt : r.calCnt ≠ 0) : (calTick c r).1.calCnt = 0 ↔ r.calCnt = 1 := by
  have hdown := calTick_calCnt_toNat c r
  bv_omega

namespace RunAfter

/-- CAL_CNT is `CAL_N` before the first step and at no other place of the run. -/
theorem calCnt_eq_calN_iff (h : RunAfter c r₀ vs r) : r.calCnt = c.calN ↔ vs = [] := by
  have hcount := h.count
  unfold Config.n at hcount
  rw [← BitVec.toNat_inj, ← List.length_eq_zero_iff]
  omega

/-- The tick of the next step adds its sample to the sum of those before (R133, R134). -/
theorem tickSum_next (h : RunAfter c r₀ vs r) (v : Axes 16) (a : Axis) :
    tickSum c { r with sample := v } a = laneSum a (vs ++ [v]) := by
  rw [laneSum_concat]
  by_cases hfirst : vs = []
  · subst hfirst
    exact (tickSum_first (r := { r with sample := v }) (h.calCnt_eq_calN_iff.2 rfl) a).trans (Int.zero_add _).symm
  · rw [← h.sums hfirst a]
    exact tickSum_later (r := { r with sample := v }) (mt h.calCnt_eq_calN_iff.1 hfirst) a

/-- A step of a run in progress leaves the run one step further. -/
theorem next (h : RunAfter c r₀ vs r) (hcnt : r.calCnt ≠ 0) (v : Axes 16) :
    RunAfter c r₀ (vs ++ [v]) (calStep c v r) := by
  have hinv : Regs.Inv c { r with sample := v } := h.inv.congr rfl rfl
  have hdown : (calStep c v r).calCnt.toNat = r.calCnt.toNat - 1 := calTick_calCnt_toNat c _
  have hzero : (calStep c v r).calCnt = 0 ↔ r.calCnt = 1 := calTick_calCnt_eq_zero_iff hcnt
  have hdone : (calStep c v r).calDone = (r.calDone || decide (r.calCnt = 1)) := calTick_calDone c _
  constructor
  case inv => exact calTick_inv hinv
  case count =>
    have hcount := h.count
    rw [List.length_append, List.length_singleton]
    bv_omega
  case sums =>
    intro _ a
    rw [← h.tickSum_next]
    exact toInt_calTick_calAcc_lane hinv hcnt a
  case ch => exact (calTick_ch c _).trans h.ch
  case acc1g => exact (calTick_acc1g c _).trans h.acc1g
  case sampleBlank => exact fun _ => calTick_sample_lane hcnt
  case trimBlank => exact fun _ hmore => calTick_trim_lane_blank hcnt (mt hzero.2 hmore)
  case doneKept =>
    intro hmore
    rw [hdone, decide_eq_false (mt hzero.2 hmore), Bool.or_false, h.doneKept hcnt]
  case committed =>
    intro hlast
    have hfinal := hzero.1 hlast
    refine ⟨by rw [hdone, decide_eq_true hfinal, Bool.or_true], fun a => ?_⟩
    rw [← h.tickSum_next, ← offset_congr (a := a) fun _ => h.acc1g]
    exact calTick_trim_lane_commit (r := { r with sample := v }) hfinal a

end RunAfter

/-- CAL_START and then up to `CAL_N` steps are such a run, for any registers and any samples. -/
theorem runAfter_stepSamples (c : Config) (r : Regs) (hlen : vs.length ≤ c.n) :
    RunAfter c r vs (stepSamples c vs (calStart c r).1) := by
  induction vs using List.reverseRecOn with
  | nil => exact runAfter_calStart c r
  | append_singleton vs v ih =>
    rw [List.length_append, List.length_singleton] at hlen
    have hbefore := ih (by omega)
    have hcount := hbefore.count
    rw [stepSamples_concat]
    exact hbefore.next (by bv_omega) v

namespace RunAfter

/-- The number of steps tells whether the run has ended (R138). -/
theorem calCnt_eq_zero_iff (h : RunAfter c r₀ vs r) : r.calCnt = 0 ↔ vs.length = c.n := by
  have hcount := h.count
  bv_omega

/-- What the host observes inside the run (R145). -/
theorem inRun (h : RunAfter c r₀ vs r) (hne : vs ≠ []) (hlen : vs.length < c.n) : InRun c vs.length r₀ r := by
  have hmore : r.calCnt ≠ 0 := mt h.calCnt_eq_zero_iff.1 hlen.ne
  have hcount := h.count
  refine ⟨Nat.eq_sub_of_add_eq hcount, ?_, h.trimBlank hne hmore, h.sampleBlank hne, h.doneKept hmore⟩
  exact Bool.eq_false_of_not_eq_true (mt calComplete_iff.1 hmore)

/-! ### A run of equal samples -/

section
variable {k : Nat} {v : Axes 16} (h : RunAfter c r₀ (List.replicate k v) r)
include h

theorem calComplete_replicate_iff : calComplete r = true ↔ k = c.n := by
  rw [calComplete_iff, h.calCnt_eq_zero_iff, List.length_replicate]

theorem toInt_calAcc_replicate (hk : k ≠ 0) (a : Axis) : (r.calAcc.lane a).toInt = k * (v.lane a).toInt := by
  rw [h.sums (mt (List.replicate_eq_nil_iff v).1 hk), laneSum_replicate]

/-- The mean of equal samples is the sample, which a lane takes less its offset. -/
theorem trim_replicate (hk : k = c.n) {a : Axis} (hv : 0 ≤ (v.lane a).toInt) :
    r.trim.lane a = wrap16 ((v.lane a).toInt - Offset r₀ a) := by
  have hlast := h.calCnt_eq_zero_iff.2 (List.length_replicate.trans hk)
  rw [(h.committed hlast).2, laneSum_replicate, hk, Int.mul_comm, average_of_nonneg_mean hv]

end

end RunAfter

end

end Sys2Proof.Machine

open Sys2Proof Sys2Proof.Machine

/-- Settles O24: by induction on the samples, the last one first, with the run's invariant. -/
theorem runCommitsRoundedMean : Obligations.RunCommitsRoundedMean := by
  intro c r vs hne hlen
  have hrun := runAfter_stepSamples c r hlen
  refine ⟨hrun.sums hne, hrun.ch, hrun.acc1g, hrun.inRun hne, fun hall => ?_⟩
  have hlast := hrun.calCnt_eq_zero_iff.2 hall
  obtain ⟨hdone, htrim⟩ := hrun.committed hlast
  refine ⟨hlast, calComplete_iff.2 hlast, hdone, hrun.sampleBlank hne, fun a => ?_⟩
  rw [htrim, wrap16_average_eq_claims]

/-- Settles O25: the run of O24 with equal samples, whose mean is the sample. -/
theorem sourceWorkedRun : Obligations.SourceWorkedRun := by
  intro c r hN h1g
  have hn : c.n = 400 := by rw [Config.n, hN]; rfl
  have hrun {k : Nat} (hk : k ≤ 400) := runAfter_stepSamples (vs := List.replicate k ⟨100, 100, 356⟩) c r
    (by rwa [List.length_replicate, hn])
  refine ⟨fun k hlow hhigh => ?_, ?_⟩
  · have hmore : k ≠ c.n := by omega
    exact Bool.eq_false_of_not_eq_true (mt (hrun (by omega)).calComplete_replicate_iff.1 hmore)
  · have hend := hrun le_rfl
    refine ⟨hend.calComplete_replicate_iff.2 hn.symm, Axes.ext_lane fun a => ?_, Axes.ext_lane fun a => ?_⟩
    · rw [hend.trim_replicate hn.symm (by cases a <;> decide)]
      cases a <;> simp only [Claims.Offset, h1g] <;> rfl
    · rw [← BitVec.toInt_inj, hend.toInt_calAcc_replicate (by decide)]
      cases a <;> rfl

end

section
/-!
The host access commands (42_host_access.md): the registers they can write, the addresses at which such a write is
read, and the cycles that issue NOP or a reserved opcode.
-/

namespace Sys2Proof.Machine

open Claims

/-! ### From the effect to the state and the response -/

section
variable {s : State} {r : Regs} {resp : Response}

/-- A command's effect gives the state it makes and its response. -/
theorem exec_of_effect {i : Instr} (h : effect chip i s.regs = (r, resp)) :
    exec i s = .next ⟨r, s.input⟩ ∧ respond i s = resp := by
  rw [exec_eq_next, respond, h]
  exact ⟨⟨rfl, rfl⟩, rfl⟩

/-- The transaction of a cycle gives the state its step makes and its response. -/
theorem step_of_transact (h : transact chip s.regs s.pins = (r, resp)) :
    step s = .next ⟨r, s.input.tail⟩ ∧ s.response = resp := by
  rw [step_eq_next, State.response, h]
  exact ⟨⟨rfl, rfl⟩, rfl⟩

/-- A cycle that issues a command makes of the registers what the command does. -/
theorem step_of_effect_decode (hrst : s.pins.rst = false) (hvalid : s.pins.cmdValid = true)
    (h : effect chip (decode s.pins.port) s.regs = (r, resp)) :
    step s = .next ⟨r, s.input.tail⟩ ∧ s.response = resp :=
  step_of_transact ((transact_issue _ _ _ hrst hvalid).trans h)

end

/-! ### What the commands do -/

section
variable (c : Config) (r : Regs)

/-- R161: all that a host access command can do is write SAMPLE, TRIM and ACC_1G, and set `resp.illegal`. -/
theorem effect_of_isHostAccess {i : Instr} (h : IsHostAccess i) : ∃ sample trim acc1g illegal,
    effect c i r = ({ r with sample := sample, trim := trim, acc1g := acc1g },
      { Response.ok with illegal := illegal }) := by
  cases i with
  | nop => exact ⟨r.sample, r.trim, r.acc1g, false, rfl⟩
  | sampleWr x y z => exact ⟨⟨x, y, z⟩, r.trim, r.acc1g, false, rfl⟩
  | trimWr x y z => exact ⟨r.sample, ⟨x, y, z⟩, r.acc1g, false, rfl⟩
  | acc1gWr v => exact ⟨r.sample, r.trim, v, false, rfl⟩
  | reserved1001 | reserved101x op | reserved11xx op => exact ⟨r.sample, r.trim, r.acc1g, true, rfl⟩
  | dec8 f | dec16 f | dec24 f | calStart | calTick => exact h.elim

/-- The opcodes 0x9 to 0xF, by the rows of R73. -/
theorem reserved_opcode_cases : ∀ op : BitVec 4, 9 ≤ op.toNat →
    op = 0x9 ∨ (op = 0xA ∨ op = 0xB) ∨ 12 ≤ op.toNat := by decide

/-- R75, R166: an opcode 0x9 to 0xF on the port is reserved. -/
theorem effect_decode_of_reserved {p : CmdPort} (h : 9 ≤ p.cmdOp.toNat) : effect c (decode p) r = reservedOp r := by
  obtain hop | hop | hop := reserved_opcode_cases _ h
  · rw [decode_reserved1001 hop, effect_reserved1001]
  · rw [decode_reserved101x hop, effect_reserved101x]
  · rw [decode_reserved11xx hop, effect_reserved11xx]

/-! ### Where a write is read (20_memory.md R55) -/

variable {a : BitVec 6}

theorem readPort_with_sample (v : Axes 16) (hx : a ≠ 0x24#6) (hy : a ≠ 0x25#6) (hz : a ≠ 0x26#6) :
    readPort c { r with sample := v } a = readPort c r a := by
  have hflags : calFlags { r with sample := v } = calFlags r := rfl
  simp only [readPort, hx, hy, hz, if_false, hflags]

theorem readPort_with_trim (v : Axes 16) (hx : a ≠ 0x21#6) (hy : a ≠ 0x22#6) (hz : a ≠ 0x23#6) :
    readPort c { r with trim := v } a = readPort c r a := by
  have hflags : calFlags { r with trim := v } = calFlags r := rfl
  simp only [readPort, hx, hy, hz, if_false, hflags]

theorem readPort_with_acc1g (v : Half) (h : a ≠ 0x27#6) : readPort c { r with acc1g := v } a = readPort c r a := by
  have hflags : calFlags { r with acc1g := v } = calFlags r := rfl
  simp only [readPort, h, if_false, hflags]

end

end Sys2Proof.Machine

open Sys2Proof Sys2Proof.Machine

/-- Settles O39: the three registers a host access command can write are none of the four. -/
theorem hostAccessFrame : Obligations.HostAccessFrame := by
  intro i s hi
  obtain ⟨sample, trim, acc1g, illegal, heffect⟩ := effect_of_isHostAccess chip s.regs hi
  obtain ⟨hexec, hresp⟩ := exec_of_effect heffect
  rw [hresp]
  exact ⟨_, hexec, rfl, rfl, rfl, rfl, rfl, rfl⟩

/-- Settles O34: NOP and an idle cycle keep the registers; only NOP is answered. -/
theorem nopOnlyAnswers : Obligations.NopOnlyAnswers := by
  refine ⟨fun s => exec_of_effect (effect_nop chip s.regs), fun s hrst hvalid hop => ?_, fun s hrst hvalid => ?_⟩
  · apply step_of_effect_decode hrst hvalid
    rw [decode_nop hop]
    exact effect_nop chip s.regs
  · exact step_of_transact (transact_idle chip s.regs s.pins hrst hvalid)

/-- Settles O35: every reserved command, and every reserved opcode on the port, has the one effect of `reservedOp`. -/
theorem reservedOpcodesOnlyReport : Obligations.ReservedOpcodesOnlyReport :=
  ⟨fun s => exec_of_effect (effect_reserved1001 chip s.regs),
    fun op s => exec_of_effect (effect_reserved101x chip s.regs op),
    fun op s => exec_of_effect (effect_reserved11xx chip s.regs op),
    fun s hrst hvalid hop => step_of_effect_decode hrst hvalid (effect_decode_of_reserved chip s.regs hop)⟩

/-- Settles O36: the write is of SAMPLE alone, which the three addresses read and no others. -/
theorem sampleWrLoadsSample : Obligations.SampleWrLoadsSample := by
  intro x y z s
  obtain ⟨hexec, hresp⟩ := exec_of_effect (effect_sampleWr chip s.regs x y z)
  exact ⟨_, hexec, rfl, hresp, toInt_sext32 x, toInt_sext32 y, toInt_sext32 z,
    fun a hx hy hz => readPort_with_sample chip s.regs _ hx hy hz⟩

/-- Settles O37: the write is of TRIM alone, which the three addresses read and no others. -/
theorem trimWrLoadsTrim : Obligations.TrimWrLoadsTrim := by
  intro x y z s
  obtain ⟨hexec, hresp⟩ := exec_of_effect (effect_trimWr chip s.regs x y z)
  exact ⟨_, hexec, rfl, hresp, toInt_sext32 x, toInt_sext32 y, toInt_sext32 z,
    fun a hx hy hz => readPort_with_trim chip s.regs _ hx hy hz⟩

/-- Settles O38: the write is of ACC_1G alone, which one address reads and no other. -/
theorem acc1gWrLoadsFullScale : Obligations.Acc1gWrLoadsFullScale := by
  intro v s
  obtain ⟨hexec, hresp⟩ := exec_of_effect (effect_acc1gWr chip s.regs v)
  exact ⟨_, hexec, rfl, hresp, toNat_zext32 v, fun a h => readPort_with_acc1g chip s.regs v h⟩

end

section
/-!
A step as a transaction (60_exceptions.md R184): which pins it reads, and that it always answers a next state, so that
a run goes on for any number of cycles (R180).
-/

namespace Sys2Proof

/-- The cycle issues a command (30_encoding.md R70) that reset does not override (70_reset_and_hazards.md R200). -/
abbrev ClockCycle.Issues (p : ClockCycle) : Prop := p.rst = false ∧ p.cmdValid = true

end Sys2Proof

namespace Sys2Proof.Machine

/-- A transaction reads every pin but `rd_addr` (20_memory.md R59). -/
theorem transact_congr (c : Config) (r : Regs) {p q : ClockCycle} (hrst : p.rst = q.rst)
    (hvalid : p.cmdValid = q.cmdValid) (hport : p.port = q.port) : transact c r p = transact c r q := by
  rw [transact, transact, hrst, hvalid, hport]

/-- A cycle that issues a command is answered as that command. -/
theorem response_of_issues {s : State} (h : s.pins.Issues) : s.response = respond (decode s.pins.port) s :=
  congrArg Prod.snd (transact_issue chip s.regs s.pins h.1 h.2)

section
variable {M : Host.Core}

/-- A run takes its first step, then goes on from the state that the step made. -/
theorem run_succ_of_step {s t : M.State} (h : M.step s = .next t) (k : Nat) : M.run (k + 1) s = M.run k t := by
  rw [Host.Core.run, h]

/-- A machine of which every step completes runs for any number of steps. -/
theorem run_completes (hstep : ∀ s, ∃ t, M.step s = .next t) (k : Nat) (s : M.State) :
    ∃ t, M.run k s = .next t := by
  induction k generalizing s with
  | zero => exact ⟨s, rfl⟩
  | succ k ih =>
    obtain ⟨t, ht⟩ := hstep s
    rw [run_succ_of_step ht]
    exact ih t

end

/-- R180: no run of RFCORE stops. -/
theorem safeRun (s : State) : SafeRun s := fun k => run_completes (M := core) step_completes k s

end Sys2Proof.Machine

open Sys2Proof Sys2Proof.Machine

/-- Settles O11: a step and a command are edges that write what the transaction and the effect answer. -/
theorem stepDependsOnRegistersAndPins : Obligations.StepDependsOnRegistersAndPins := by
  refine ⟨fun s => step_of_transact rfl, fun i s => exec_of_effect rfl,
    fun s hrst hvalid => response_of_issues ⟨hrst, hvalid⟩, fun s s' hregs hrst hvalid hport => ?_⟩
  have htransact : transact chip s.regs s.pins = transact chip s'.regs s'.pins := by
    rw [hregs, transact_congr chip s'.regs hrst hvalid hport]
  obtain ⟨hstep, hresp⟩ := step_of_transact htransact
  obtain ⟨hstep', hresp'⟩ := step_of_transact (s := s') rfl
  exact ⟨hresp.trans hresp'.symm, _, _, hstep, hstep', rfl⟩

/-- Settles O10: a fault has no constructor, and a command, a step and a run each answer a next state. -/
theorem everyRunIsSafe : Obligations.EveryRunIsSafe :=
  ⟨⟨nofun⟩, exec_completes, step_completes, safeRun⟩

/-- Settles O8: a cycle with neither `rst` nor `cmd_valid` is the last case of a transaction. -/
theorem idleCycleHoldsRegisters : Obligations.IdleCycleHoldsRegisters :=
  fun s hrst hvalid => step_of_transact (transact_idle chip s.regs s.pins hrst hvalid)

end

section
/-!
The response (60_exceptions.md R184), field by field: first what each command answers, then what a cycle does, which
answers as the command it issues or not at all.
-/

namespace Sys2Proof.Machine

open Claims

/-! ### The fields a command sets -/

section
variable (c : Config) (r : Regs)

/-- Every command is answered. -/
theorem effect_resp_valid (i : Instr) : (effect c i r).2.valid = true := by
  cases i
  case calTick => rw [effect_calTick, calTick_resp]; rfl
  all_goals rfl

/-- `resp.save` comes with a final tick alone. -/
theorem effect_resp_save (i : Instr) : (effect c i r).2.save = true ↔ i = .calTick ∧ r.calCnt = 1 := by
  cases i
  case calTick => simp [effect_calTick, calTick_resp]
  all_goals exact iff_of_false Bool.false_ne_true (nofun ∘ And.left)

/-- `resp.illegal` comes with the reserved opcodes alone. -/
theorem effect_resp_illegal {i : Instr} (hwf : i.wf = true) :
    (effect c i r).2.illegal = decide (9 ≤ i.opcode.toNat) := by
  cases i
  case calTick => rw [effect_calTick, calTick_resp]; rfl
  case reserved101x op => obtain rfl | rfl := (reserved101x_wf_iff op).1 hwf <;> rfl
  case reserved11xx op =>
    have hop : 9 ≤ op.toNat := Nat.le_of_add_right_le (k := 3) ((reserved11xx_wf_iff op).1 hwf)
    exact (decide_eq_true hop).symm
  all_goals rfl

end

/-! ### The commands behind the opcodes -/

section
variable {p : CmdPort}

theorem decode_eq_calTick_iff : decode p = .calTick ↔ p.cmdOp = 0x5 := by
  refine ⟨fun h => ?_, decode_calTick⟩
  rw [← (decode_wf_and_opcode p).2, h]
  rfl

/-- The DEC commands have the opcodes 0x1 to 0x3 (30_encoding.md R73). -/
theorem opcode_of_isDec {n : Nat} {i : Instr} (h : IsDec n i) :
    i.opcode = 0x1 ∨ i.opcode = 0x2 ∨ i.opcode = 0x3 := by
  obtain ⟨f, rfl, -⟩ | ⟨f, rfl, -⟩ | ⟨f, rfl, -⟩ := h
  · exact .inl rfl
  · exact .inr (.inl rfl)
  · exact .inr (.inr rfl)

theorem decode_not_isDec (h1 : p.cmdOp ≠ 0x1) (h2 : p.cmdOp ≠ 0x2) (h3 : p.cmdOp ≠ 0x3) (n : Nat) :
    ¬IsDec n (decode p) := by
  intro hdec
  have hop := opcode_of_isDec hdec
  rw [(decode_wf_and_opcode p).2] at hop
  exact hop.elim h1 (·.elim h2 h3)

end

/-! ### The response of a cycle -/

section
variable {s : State}

theorem response_of_not_issues (h : ¬s.pins.Issues) : s.response = Response.none := by
  cases hrst : s.pins.rst with
  | true => exact congrArg Prod.snd (transact_reset chip s.regs s.pins hrst)
  | false =>
    have hvalid : s.pins.cmdValid = false := Bool.eq_false_of_not_eq_true fun hv => h ⟨hrst, hv⟩
    exact congrArg Prod.snd (transact_idle chip s.regs s.pins hrst hvalid)

/-- A flag that is clear in the empty response is set only by the command a cycle issues. -/
theorem response_flag_iff (flag : Response → Bool) (hnone : flag Response.none = false) :
    flag s.response = true ↔ s.pins.Issues ∧ flag (respond (decode s.pins.port) s) = true := by
  by_cases hissue : s.pins.Issues
  · rw [response_of_issues hissue, and_iff_right hissue]
  · rw [response_of_not_issues hissue, hnone]
    exact iff_of_false Bool.false_ne_true (hissue ·.1)

theorem response_valid_iff : s.response.valid = true ↔ s.pins.Issues :=
  (response_flag_iff Response.valid rfl).trans (and_iff_left (effect_resp_valid chip s.regs _))

theorem response_save_iff :
    s.response.save = true ↔ s.pins.Issues ∧ s.pins.port.cmdOp = 0x5 ∧ s.regs.calCnt = 1 := by
  rw [response_flag_iff Response.save rfl, respond, effect_resp_save, decode_eq_calTick_iff]

theorem response_illegal_iff : s.response.illegal = true ↔ s.pins.Issues ∧ 9 ≤ s.pins.port.cmdOp.toNat := by
  obtain ⟨hwf, hop⟩ := decode_wf_and_opcode s.pins.port
  rw [response_flag_iff Response.illegal rfl, respond, effect_resp_illegal chip s.regs hwf, decide_eq_true_iff, hop]

/-- "Every field is 0 when `resp.valid = 0`" (R184). -/
theorem response_of_not_valid (h : s.response.valid = false) : s.response = Response.none :=
  response_of_not_issues fun hissue => Bool.false_ne_true (h.symm.trans (response_valid_iff.2 hissue))

/-- A cycle that issues a DEC command answers with the status of its flags byte. -/
theorem response_status_of_isDec {n : Nat} (hissue : s.pins.Issues)
    (hdec : IsDec n (decode s.pins.port)) :
    s.response.status = StatusWord (FlagsByte (decode s.pins.port)) := by
  rw [response_of_issues hissue, respond_of_isDec hdec]
  rfl

theorem response_status_of_not_isDec (h : ∀ n, ¬IsDec n (decode s.pins.port)) : s.response.status = 0 := by
  by_cases hissue : s.pins.Issues
  · rw [response_of_issues hissue, respond_status_of_not_isDec h]
  · rw [response_of_not_issues hissue, Response.none_status]

end

end Sys2Proof.Machine

open Sys2Proof Sys2Proof.Machine

/-- Settles O9: the fields of a cycle's response, then the cycle in which the host sees it. -/
theorem responseDescribesCycleBefore : Obligations.ResponseDescribesCycleBefore := by
  intro s
  refine ⟨response_valid_iff, response_of_not_valid, fun hissue hop => ?_, fun hissue hop => ?_, fun hissue hop => ?_,
    fun h1 h2 h3 => response_status_of_not_isDec (decode_not_isDec h1 h2 h3), response_save_iff,
    response_illegal_iff, ?_⟩
  · have hdec := decode_dec8 hop
    rw [response_status_of_isDec hissue (.inl ⟨_, hdec, rfl⟩), hdec, Claims.FlagsByte, getElem_takeFrame]
  · have hdec := decode_dec16 hop
    rw [response_status_of_isDec hissue (.inr (.inl ⟨_, hdec, rfl⟩)), hdec, Claims.FlagsByte, getElem_takeFrame]
  · have hdec := decode_dec24 hop
    rw [response_status_of_isDec hissue (.inr (.inr ⟨_, hdec, rfl⟩)), hdec, Claims.FlagsByte]
  · obtain ⟨t, ht⟩ := step_completes s
    obtain ⟨u, hu⟩ := step_completes t
    exact ⟨t, u, ht, hu, fun k b => by rw [waves_succ_of_step ht, waves_succ_of_step hu]⟩

end

section
/-!
The two units share no register (60_exceptions.md R183): the decode operation writes CH from CH and its frame, and every
other command passes CH through and does not read it.
-/

namespace Sys2Proof.Machine

open Claims

section
variable (c : Config) (r : Regs) (ch : Vector Half 26)

theorem calTick_with_ch :
    calTick c { r with ch := ch } = ({ (calTick c r).1 with ch := ch }, (calTick c r).2) := by
  by_cases hidle : r.calCnt = 0
  · rw [calTick_idle c r hidle, calTick_idle c { r with ch := ch } hidle]
  · rw [calTick_active c r hidle, calTick_active c { r with ch := ch } hidle]
    rfl

/-- A command that is not a decode passes the channels through and does not read them. -/
theorem effect_with_ch {j : Instr} (hj : ∀ n, ¬IsDec n j) :
    effect c j { r with ch := ch } = ({ (effect c j r).1 with ch := ch }, (effect c j r).2) := by
  cases j
  case dec8 f => exact absurd (.inl ⟨f, rfl, rfl⟩) (hj 8)
  case dec16 f => exact absurd (.inr (.inl ⟨f, rfl, rfl⟩)) (hj 16)
  case dec24 f => exact absurd (.inr (.inr ⟨f, rfl, rfl⟩)) (hj 24)
  case calTick => exact calTick_with_ch c r ch
  all_goals rfl

/-- So it keeps them. -/
theorem effect_ch_of_not_isDec {j : Instr} (hj : ∀ n, ¬IsDec n j) : (effect c j r).1.ch = r.ch :=
  congrArg (·.1.ch) (effect_with_ch c r r.ch hj)

end

end Sys2Proof.Machine

open Sys2Proof Sys2Proof.Machine

/-- Settles O17: either order makes of the registers what the other command does, with the channels of the decode. -/
theorem decodeCommutesWithOtherUnit : Obligations.DecodeCommutesWithOtherUnit := by
  intro n i j s t u t' u' hi hj ht hu ht' hu'
  obtain ⟨_, f, hregs⟩ := exec_isDec_regs hi
  have hdecFirst : u.regs = { (effect chip j s.regs).1 with ch := channelsAfter n f s.regs.ch } := by
    rw [(exec_eq_next.1 hu).1, hregs s t ht, effect_with_ch chip s.regs _ hj]
  have hdecLast : u'.regs = { (effect chip j s.regs).1 with ch := channelsAfter n f s.regs.ch } := by
    rw [hregs t' u' hu', (exec_eq_next.1 ht').1, effect_ch_of_not_isDec chip s.regs hj]
  exact hdecFirst.trans hdecLast.symm

end

section
/-!
Writes between the ticks of a run (70_reset_and_hazards.md R213, R214, R216): a tick overwrites TRIM unread, adds a
blanked SAMPLE as 0, and reads ACC_1G for the commit of lane Z alone.
-/

namespace Sys2Proof.Machine

section
variable {c : Config} {r : Regs}

/-- A tick of a run writes every lane of TRIM and reads none. -/
theorem calTick_with_trim (hcnt : r.calCnt ≠ 0) (trim : Axes 16) : calTick c { r with trim := trim } = calTick c r := by
  rw [calTick_active c r hcnt, calTick_active c { r with trim := trim } hcnt]
  rfl

/-! ### A tick without a fresh sample -/

/-- A value read from an accumulator is stored back as it was, whatever it is. -/
theorem accumulatorOf_toInt (w : Word) : accumulatorOf w.toInt = w := by
  have hlow := BitVec.le_toInt w
  have hhigh := BitVec.toInt_lt (x := w)
  exact BitVec.eq_of_toInt_eq (toInt_accumulatorOf (by omega))

/-- After the first tick of a run, a sample of 0 leaves a lane's accumulator as it is. -/
theorem calTick_calAcc_lane_of_sample_zero (hcnt : r.calCnt ≠ 0) (hlater : r.calCnt ≠ c.calN) {a : Axis}
    (hsample : r.sample.lane a = 0) : (calTick c r).1.calAcc.lane a = r.calAcc.lane a := by
  have hsum : tickSum c r a = (r.calAcc.lane a).toInt := by simp [tickSum_later hlater, hsample]
  rw [calTick_calAcc_lane hcnt, hsum, accumulatorOf_toInt]

/-! ### The full-scale value -/

/-- A tick that commits nothing passes ACC_1G through and does not read it. -/
theorem calTick_with_acc1g (hnot : r.calCnt ≠ 1) (v : Half) :
    (calTick c { r with acc1g := v }).1 = { (calTick c r).1 with acc1g := v } := by
  by_cases hidle : r.calCnt = 0
  · rw [calTick_idle c r hidle, calTick_idle c { r with acc1g := v } hidle]
  · have hblank : inPhase c r .finalizing = false :=
      Bool.eq_false_of_not_eq_true fun hfinal => hnot (inPhase_finalizing_iff.1 hfinal)
    have hblank' : inPhase c { r with acc1g := v } .finalizing = false := hblank
    rw [calTick_active c r hidle, calTick_active c { r with acc1g := v } hidle]
    simp only [activeTick, hblank, hblank', Bool.false_eq_true, if_false]
    rfl

/-- `wrap_16` takes an offset off modulo 2^16. -/
theorem wrap16_sub_toNat (i : Int) (v : Half) : wrap16 (i - v.toNat) = wrap16 i - v := by
  rw [wrap16, Int.sub_eq_add_neg, BitVec.ofInt_add, BitVec.ofInt_neg, BitVec.ofInt_natCast, BitVec.ofNat_toNat,
    BitVec.setWidth_eq, ← BitVec.sub_eq_add_neg, wrap16]

/-- The commit of lane Z moves by the difference of the full-scale values (R136). -/
theorem calTick_trim_z_with_acc1g (hfinal : r.calCnt = 1) (v : Half) :
    (calTick c { r with acc1g := v }).1.trim.z = (calTick c r).1.trim.z + r.acc1g - v := by
  have hcommit : (calTick c r).1.trim.z = wrap16 (average c (tickSum c r .z)) - r.acc1g :=
    (calTick_trim_lane_commit hfinal .z).trans (wrap16_sub_toNat _ _)
  have hcommit' : (calTick c { r with acc1g := v }).1.trim.z = wrap16 (average c (tickSum c r .z)) - v :=
    (calTick_trim_lane_commit (r := { r with acc1g := v }) hfinal .z).trans (wrap16_sub_toNat _ _)
  rw [hcommit, hcommit', BitVec.sub_add_cancel]

end

end Sys2Proof.Machine

open Sys2Proof Sys2Proof.Machine

/-- Settles O31: TRIM_WR writes TRIM alone, which a tick of a run overwrites unread. -/
theorem trimWriteInRunIsOverwritten : Obligations.TrimWriteInRunIsOverwritten := by
  intro x y z s t u v hcnt ht hu hv
  have htregs : t.regs = { s.regs with trim := ⟨x, y, z⟩ } := (exec_eq_next.1 ht).1
  have htick : calTick chip t.regs = calTick chip s.regs := by rw [htregs, calTick_with_trim hcnt]
  have huregs : u.regs = (calTick chip t.regs).1 := (exec_eq_next.1 hu).1
  have hvregs : v.regs = (calTick chip s.regs).1 := (exec_eq_next.1 hv).1
  exact ⟨by rw [huregs, hvregs, htick], congrArg Prod.snd htick⟩

/-- Settles O32: the first tick zeroes SAMPLE and leaves the counter below `CAL_N` and above 0. -/
theorem tickWithoutFreshSampleAddsZero : Obligations.TickWithoutFreshSampleAddsZero := by
  intro c r hbounded htwo
  have hn : r.calCnt.toNat ≤ c.calN.toNat := hbounded
  have hdown := calTick_calCnt_toNat c r
  have hcnt : r.calCnt ≠ 0 := by bv_omega
  have hactive : (calTick c r).1.calCnt ≠ 0 := by bv_omega
  have hlater : (calTick c r).1.calCnt ≠ c.calN := by bv_omega
  exact Axes.ext_lane fun a => calTick_calAcc_lane_of_sample_zero hactive hlater (calTick_sample_lane hcnt a)

/-- Settles O33: lanes X and Y do not read ACC_1G (O28), and lane Z takes it off its commit. -/
theorem fullScaleReadAtFinalTick : Obligations.FullScaleReadAtFinalTick := by
  refine ⟨fun c r v hnot => calTick_with_acc1g hnot v, fun c r v hfinal => ?_, fun v s t ht => ?_⟩
  · obtain ⟨-, -, htrimX, -⟩ := lanesAreIndependent c { r with acc1g := v } r .x rfl rfl rfl rfl nofun
    obtain ⟨-, -, htrimY, -⟩ := lanesAreIndependent c { r with acc1g := v } r .y rfl rfl rfl rfl nofun
    exact ⟨htrimX, htrimY, calTick_trim_z_with_acc1g hfinal v⟩
  · rw [(exec_eq_next.1 ht).1, effect_acc1gWr]

end

section
/-!
Decode and encode (30_encoding.md R71 to R75): the words of the opcode table, which carry a row's opcode and no operand,
and the two laws between the decoder and the encoder.
-/

namespace Sys2Proof

/-- Every operand port of a table word is zero, hence so is every byte that a DEC command takes from it. -/
@[simp] theorem takeFrame_frameIn_ofOp {m : Nat} (hm : m ≤ 34) (op : BitVec 4) :
    takeFrame m hm (CmdPort.ofOp op).frameIn = Vector.replicate m 0 := by
  ext i hi
  simp [CmdPort.ofOp]

/-- A word wider than the port is no command (log entry 7). -/
theorem decodeTableWord_of_le {nbits w : Nat} (h : 16 ≤ w % 2 ^ nbits) : decodeTableWord nbits w = none := by
  rw [decodeTableWord, portOfWord, if_neg (Nat.not_lt.2 h)]

/-- A table word decodes to `i` if the port that carries its opcode does. -/
theorem decodeTableWord_eq_some {nbits w : Nat} {i : Instr} (h : w % 2 ^ nbits < 16)
    (hi : decode (CmdPort.ofOp (BitVec.ofNat 4 (w % 2 ^ nbits))) = i) : decodeTableWord nbits w = some i := by
  rw [decodeTableWord, portOfWord, if_pos h, ← hi]

end Sys2Proof

open Sys2Proof

/-- Settles O3: each command's row of the decoder gives back the operands that the encoder put on the ports. -/
theorem decodeOfEncode : Obligations.DecodeOfEncode := fun _ => decode_encode

/-- Settles O4: the decoder keeps the opcode in the command it answers, and the encoder writes that opcode. -/
theorem encodeOfDecodeKeepsOpcode : Obligations.EncodeOfDecodeKeepsOpcode := fun p =>
  ⟨(decode_wf_and_opcode p).1, encode_decode_cmdOp p⟩

/-- Settles O2: each of the nine words is below 16 and is decoded by its row; the last one does not fit the port. -/
theorem specWordsDecode : Obligations.SpecWordsDecode :=
  ⟨decodeTableWord_eq_some (by decide) (decode_nop rfl),
    decodeTableWord_eq_some (by decide) ((decode_dec8 rfl).trans (by rw [takeFrame_frameIn_ofOp])),
    decodeTableWord_eq_some (by decide) (decode_dec24 rfl),
    decodeTableWord_eq_some (by decide) (decode_calTick rfl),
    decodeTableWord_eq_some (by decide) (decode_trimWr rfl),
    decodeTableWord_eq_some (by decide) (decode_acc1gWr rfl),
    decodeTableWord_eq_some (by decide) (decode_reserved1001 rfl),
    decodeTableWord_eq_some (by decide) (decode_reserved101x (.inr rfl)),
    decodeTableWord_eq_some (by decide) (decode_reserved11xx (by decide)),
    decodeTableWord_of_le (by decide)⟩

end
